-- ==== Sys2Proof/Word.lean ====
section
/-! DEFINITION. The widths of the block's registers and wire fields (spec 00_scope.md R8, 10_state.md R10). -/

namespace Sys2Proof

/-- A byte of a frame, and the 8-bit registers: the spec's `u8`. -/
abbrev Byte := BitVec 8

/-- A 16-bit register, and one host access's data: the spec's `u16` (20_memory.md R36). -/
abbrev Word := BitVec 16

/-- The 4-bit registers `STATUS` and `TX_LEN` (10_state.md R12, R21). -/
abbrev Nibble := BitVec 4

/-- An index of the register space: 10 bits, 0x000 to 0x3FF (20_memory.md R33). -/
abbrev Index := BitVec 10

end Sys2Proof
end

