-- ==== Sys2Proof/Config.lean ====
section
/-! DEFINITION. The parameters of the block (spec 00_scope.md R8) and its free values (10_state.md R31). -/

namespace Sys2Proof.Config

/-- `POLY`: the CRC feedback constant (00_scope.md R8, 40_crc.md R72). -/
def poly : Word := 0xA001

/-- `CRC_INIT_VALUE`: the generator's value at the start of every CRC (R8, R72). -/
def crcInitValue : Word := 0xFFFF

/-- `FC_READ`: read holding registers (R8). -/
def fcRead : Byte := 0x03

/-- `FC_WRITE`: write single register (R8). -/
def fcWrite : Byte := 0x06

/-- `EXC_BIT`: the exception marker in a function code (R8). -/
def excBit : Byte := 0x80

/-- `MIN_COUNT`: the smallest legal register count of a read (R8). -/
def minCount : Nat := 1

/-- `MAX_COUNT`: the largest legal register count of a read (R8). -/
def maxCount : Nat := 125

/-- The length of a request frame and of a write response (R8). -/
def requestLength : Nat := 8

/-- `ABS_MIN_FRAME`: the shortest response any decoder accepts (R8, D17). -/
def absMinFrame : Nat := 5

/-- FREE VALUE. `TXBUF[i]` after reset number `k`: "each entry holds some 8-bit value, not known" (10_state.md R31; log 2).
No body: nothing in Lean can tell its value. -/
opaque txbufAtReset : Nat → Nat → Byte

/-- FREE VALUE. `RXBUF[i]` after reset number `k` (10_state.md R31; log 2). -/
opaque rxbufAtReset : Nat → Nat → Byte

/-- FREE VALUE. `RESULT[i]` after reset number `k` (10_state.md R31; log 2). -/
opaque resultAtReset : Nat → Nat → Word

end Sys2Proof.Config
end

