-- ==== Sys2Proof/Machine/Bytes.lean ====
section
/-! DEFINITION. Byte order: how 16-bit fields are split into bytes and assembled (spec 20_memory.md R42, 30_encoding.md R63). -/

namespace Sys2Proof

/-- `v[15:8]`. -/
def hiByte (v : Word) : Byte := v.extractLsb' 8 8

/-- `v[7:0]`. -/
def loByte (v : Word) : Byte := v.extractLsb' 0 8

/-- `{hi, lo}`, that is `hi * 256 + lo` (R63). -/
def joinBytes (hi lo : Byte) : Word := hi ++ lo

/-- A payload field on the wire: high byte first (R42). -/
def beBytes (v : Word) : List Byte := [hiByte v, loByte v]

/-- A CRC on the wire: low byte first (R42). -/
def leBytes (v : Word) : List Byte := [loByte v, hiByte v]

/-- The register values of a read response on the wire, in order, each high byte first (R60). -/
def wordsBytes : List Word → List Byte
  | [] => []
  | w :: ws => beBytes w ++ wordsBytes ws

/-- The 16-bit values of a byte sequence taken two bytes at a time, each high byte first (R43, R63). -/
def wordsOf : List Byte → List Word
  | [] => []
  | [_] => []
  | hi :: lo :: rest => joinBytes hi lo :: wordsOf rest

/-- A list with its first entries replaced by new ones, one for one; the rest stays. -/
def overlay {α : Type} : List α → List α → List α
  | [], old => old
  | _ :: _, [] => []
  | b :: bs, _ :: old => b :: overlay bs old

theorem length_overlay {α : Type} (new old : List α) : (overlay new old).length = old.length := by
  induction new generalizing old with
  | nil => rfl
  | cons b bs ih =>
    cases old with
    | nil => rfl
    | cons o old => simp [overlay, ih]

/-- The `n` bytes of an `8 * n`-bit pattern, the leftmost (most significant) first: byte 0 of a frame stands leftmost
(30_encoding.md R58, R71). -/
def bytesOfNat : Nat → Nat → List Byte
  | 0, _ => []
  | n + 1, w => BitVec.ofNat 8 (w / 256 ^ n) :: bytesOfNat n w

end Sys2Proof
end

