-- ==== Sys2Proof/Machine/CrcFn.lean ====
section
/-! DEFINITION. The pure functions of the CRC-16 Modbus generator and verifier (spec 40_crc.md R72 to R76). -/

namespace Sys2Proof

/-- `crc_bit(c)`, one bit step (R73): shift right by one; if the bit shifted out was 1, exclusive-or with `POLY`. -/
def crcBit (c : Word) : Word :=
  if c.getLsbD 0 then (c >>> 1) ^^^ Config.poly else c >>> 1

/-- `crc_byte(c, b)`, one byte step (R74): `b` enters the low eight bits, then exactly eight bit steps. -/
def crcByte (c : Word) (b : Byte) : Word :=
  let t0 := c ^^^ b.zeroExtend 16
  let t1 := crcBit t0
  let t2 := crcBit t1
  let t3 := crcBit t2
  let t4 := crcBit t3
  let t5 := crcBit t4
  let t6 := crcBit t5
  let t7 := crcBit t6
  crcBit t7

/-- The generator run over a sequence from the register value `c`, byte 0 first (R72, R75). -/
def crcFrom (c : Word) (bytes : List Byte) : Word := bytes.foldl crcByte c

/-- `crc16(s)` (R75). -/
def crc16 (bytes : List Byte) : Word := crcFrom Config.crcInitValue bytes

/-- `crc_ok(s)`, the verifier (R76): the CRC of all bytes before the trailer is the trailer read low byte first.
The spec defines it for two bytes or more and every use shows that length first; on fewer bytes this answers false,
which no rule reads (log 10). -/
def crcOk (bytes : List Byte) : Bool :=
  match bytes.drop (bytes.length - 2) with
  | [lo, hi] => crc16 (bytes.take (bytes.length - 2)) == joinBytes hi lo
  | _ => false

end Sys2Proof
end

