-- ==== Sys2Proof/Syntax.lean ====
section
/-! DEFINITION. The rows of spec/opcode_table.json: eight commands (30_encoding.md R52, R53) and six wire frames (R58 to R62). -/

namespace Sys2Proof

/-- One constructor per row of the opcode table. A command carries no operand field: "every operand is a register named
by the command's rule" (R52). A frame carries every field of its layout, the trailer included, as it stands on the wire. -/
inductive Instr where
  /-- `CRC_INIT` (40_crc.md R78). -/
  | crcInit
  /-- `CRC_BYTE` (R79). -/
  | crcByte
  /-- `CRC_BUF` (R80). -/
  | crcBuf
  /-- `CRC_CHECK` (R81). -/
  | crcCheck
  /-- `ENC_READ` (41_encoder.md R85). -/
  | encRead
  /-- `ENC_WRITE` (R86). -/
  | encWrite
  /-- `DEC_READ` (42_decoder.md R93). -/
  | decRead
  /-- `DEC_WRITE` (R94). -/
  | decWrite
  /-- `REQ_READ`: the request "read holding registers" (30_encoding.md R58). -/
  | reqRead (unit : Byte) (addr count crc : Word)
  /-- `REQ_WRITE`: the request "write single register" (R59). -/
  | reqWrite (unit : Byte) (addr value crc : Word)
  /-- `RSP_READ`: the normal response to a read (R60). -/
  | rspRead (unit byteCount : Byte) (regs : List Word) (crc : Word)
  /-- `RSP_WRITE`: the normal response to a write (R61). -/
  | rspWrite (unit : Byte) (addr value crc : Word)
  /-- `RSP_READ_EXC`: the exception response to a read (R62). -/
  | rspReadExc (unit code : Byte) (crc : Word)
  /-- `RSP_WRITE_EXC`: the exception response to a write (R62). -/
  | rspWriteExc (unit code : Byte) (crc : Word)
  deriving DecidableEq, Repr

end Sys2Proof
end

