-- ==== Sys2Proof/Machine/Frames.lean ====
section
/-! DEFINITION. The wire layouts: the bytes of every frame kind (spec 30_encoding.md R57 to R62). -/

namespace Sys2Proof

/-- Bytes 0 to 5 of an eight-byte frame: unit, function, address, then count or value (R58, R59, R61). -/
def requestBody (unit function : Byte) (addr operand : Word) : List Byte :=
  [unit, function] ++ beBytes addr ++ beBytes operand

/-- A byte sequence followed by its right trailer, low byte first (R57). -/
def withTrailer (body : List Byte) : List Byte := body ++ leBytes (crc16 body)

/-- The bytes of a frame before its trailer (R58 to R62). A command is no frame and has none. -/
def frameBody : Instr → List Byte
  | .crcInit => []
  | .crcByte => []
  | .crcBuf => []
  | .crcCheck => []
  | .encRead => []
  | .encWrite => []
  | .decRead => []
  | .decWrite => []
  | .reqRead unit addr count _ => requestBody unit Config.fcRead addr count
  | .reqWrite unit addr value _ => requestBody unit Config.fcWrite addr value
  | .rspRead unit byteCount regs _ => unit :: Config.fcRead :: byteCount :: wordsBytes regs
  | .rspWrite unit addr value _ => requestBody unit Config.fcWrite addr value
  | .rspReadExc unit code _ => [unit, Config.fcRead ||| Config.excBit, code]
  | .rspWriteExc unit code _ => [unit, Config.fcWrite ||| Config.excBit, code]

/-- The trailer field of a frame; a command has none. -/
def frameCrc? : Instr → Option Word
  | .crcInit => none
  | .crcByte => none
  | .crcBuf => none
  | .crcCheck => none
  | .encRead => none
  | .encWrite => none
  | .decRead => none
  | .decWrite => none
  | .reqRead _ _ _ crc => some crc
  | .reqWrite _ _ _ crc => some crc
  | .rspRead _ _ _ crc => some crc
  | .rspWrite _ _ _ crc => some crc
  | .rspReadExc _ _ crc => some crc
  | .rspWriteExc _ _ crc => some crc

/-- All bytes of a frame, byte 0 first: the body, then the trailer low byte first (R57). -/
def frameBytes (i : Instr) : List Byte :=
  match frameCrc? i with
  | some crc => frameBody i ++ leBytes crc
  | none => []

end Sys2Proof
end

