-- ==== Sys2Proof/WellFormed.lean ====
section
/-! DEFINITION. What makes a row's term well formed: the limits of spec 30_encoding.md R57 to R62 on a frame's fields. -/

namespace Sys2Proof

/-- The fields fit the encoding: a read response holds 1 to 125 register values (30_encoding.md R60, R65). Every other
field has the width of its wire field, so nothing else can fail to fit. -/
def Instr.fits : Instr → Bool
  | .crcInit => true
  | .crcByte => true
  | .crcBuf => true
  | .crcCheck => true
  | .encRead => true
  | .encWrite => true
  | .decRead => true
  | .decWrite => true
  | .reqRead _ _ _ _ => true
  | .reqWrite _ _ _ _ => true
  | .rspRead _ _ regs _ => decide (Config.minCount ≤ regs.length ∧ regs.length ≤ Config.maxCount)
  | .rspWrite _ _ _ _ => true
  | .rspReadExc _ _ _ => true
  | .rspWriteExc _ _ _ => true

/-- The count of a read request is legal (R58: 0x01 to 0x7D, the high byte always 0x00). -/
def Instr.countLegal : Instr → Bool
  | .crcInit => true
  | .crcByte => true
  | .crcBuf => true
  | .crcCheck => true
  | .encRead => true
  | .encWrite => true
  | .decRead => true
  | .decWrite => true
  | .reqRead _ _ count _ => decide (Config.minCount ≤ count.toNat ∧ count.toNat ≤ Config.maxCount)
  | .reqWrite _ _ _ _ => true
  | .rspRead _ _ _ _ => true
  | .rspWrite _ _ _ _ => true
  | .rspReadExc _ _ _ => true
  | .rspWriteExc _ _ _ => true

/-- The trailer is the CRC of the bytes before it (R57). -/
def Instr.trailerRight (i : Instr) : Bool :=
  match frameCrc? i with
  | some crc => crc16 (frameBody i) == crc
  | none => true

/-- A term that the layouts of R52 and R57 to R62 describe: every command, and every frame whose fields fit, whose count
is legal and whose trailer is right. -/
def Instr.wf (i : Instr) : Bool := i.fits && i.countLegal && i.trailerRight

end Sys2Proof
end

