-- ==== Sys2Proof/Decode.lean ====
section
/-! DEFINITION. From words and bytes to rows of the opcode table and back (spec 30_encoding.md R51 to R65, R71). -/

namespace Sys2Proof

/-- The encodings of R51. A command is one 16-bit word. A frame is a byte sequence together with its direction, which is
in no byte of it: `REQ_WRITE` and `RSP_WRITE` "have the same bytes and the same `match`; they differ in direction only"
(R71). -/
inductive Code where
  | command (word : Word)
  | request (bytes : List Byte)
  | response (bytes : List Byte)
  deriving DecidableEq, Repr

/-- Why a code names no row of the table. -/
inductive DecodeError where
  /-- A reserved command code: 0x0000 and 0x0009 to 0xFFFF (R54). -/
  | reservedCommand
  /-- The number of bytes is that of no frame with this function code and direction (R58 to R62). -/
  | wrongLength
  /-- Byte 1 is no function code in scope for this direction (R58 to R62, R66). -/
  | wrongFunction
  deriving DecidableEq, Repr

/-- The command whose code is the word, compared over all 16 bits (R53, R54, 10_state.md R11). -/
def decodeCommand (word : Word) : Except DecodeError Instr :=
  if word = 0x0001 then .ok .crcInit
  else if word = 0x0002 then .ok .crcByte
  else if word = 0x0003 then .ok .crcBuf
  else if word = 0x0004 then .ok .crcCheck
  else if word = 0x0005 then .ok .encRead
  else if word = 0x0006 then .ok .encWrite
  else if word = 0x0007 then .ok .decRead
  else if word = 0x0008 then .ok .decWrite
  else .error .reservedCommand

/-- A request frame: eight bytes, function 0x03 or 0x06 (R58, R59). -/
def decodeRequest : List Byte → Except DecodeError Instr
  | [unit, function, a1, a0, x1, x0, lo, hi] =>
    if function = Config.fcRead then .ok (.reqRead unit (joinBytes a1 a0) (joinBytes x1 x0) (joinBytes hi lo))
    else if function = Config.fcWrite then .ok (.reqWrite unit (joinBytes a1 a0) (joinBytes x1 x0) (joinBytes hi lo))
    else .error .wrongFunction
  | _ => .error .wrongLength

/-- The bytes of a read response after byte 2: pairs of value bytes, high byte first, then the trailer, low byte first
(R60). None where the number of bytes is odd or there is no trailer. -/
def readPayload : List Byte → Option (List Word × Word)
  | [] => none
  | [_] => none
  | [lo, hi] => some ([], joinBytes hi lo)
  | hi :: lo :: next :: rest =>
    match readPayload (next :: rest) with
    | some (regs, crc) => some (joinBytes hi lo :: regs, crc)
    | none => none

/-- The normal response to a read, from byte 2 on (R60): 1 to 125 values. -/
def decodeReadResponse (unit : Byte) : List Byte → Except DecodeError Instr
  | [] => .error .wrongLength
  | byteCount :: payload =>
    match readPayload payload with
    | none => .error .wrongLength
    | some (regs, crc) =>
      if Config.minCount ≤ regs.length ∧ regs.length ≤ Config.maxCount then .ok (.rspRead unit byteCount regs crc)
      else .error .wrongLength

/-- The normal response to a write, from byte 2 on (R61). -/
def decodeWriteResponse (unit : Byte) : List Byte → Except DecodeError Instr
  | [a1, a0, v1, v0, lo, hi] => .ok (.rspWrite unit (joinBytes a1 a0) (joinBytes v1 v0) (joinBytes hi lo))
  | _ => .error .wrongLength

/-- A response frame, by byte 1 (R60 to R62, R65): 0x03 and 0x06 normal, 0x83 and 0x86 exceptions. -/
def decodeResponse : List Byte → Except DecodeError Instr
  | unit :: function :: rest =>
    if function = Config.fcRead then decodeReadResponse unit rest
    else if function = Config.fcWrite then decodeWriteResponse unit rest
    else if function = Config.fcRead ||| Config.excBit then
      match rest with
      | [code, lo, hi] => .ok (.rspReadExc unit code (joinBytes hi lo))
      | _ => .error .wrongLength
    else if function = Config.fcWrite ||| Config.excBit then
      match rest with
      | [code, lo, hi] => .ok (.rspWriteExc unit code (joinBytes hi lo))
      | _ => .error .wrongLength
    else .error .wrongFunction
  | _ => .error .wrongLength

/-- The row a code names, or why it names none: total on any word and any bytes. -/
def decode : Code → Except DecodeError Instr
  | .command word => decodeCommand word
  | .request bytes => decodeRequest bytes
  | .response bytes => decodeResponse bytes

/-- The code of a row's term: the command codes of R53, the layouts of R58 to R62. -/
def encode : Instr → Code
  | .crcInit => .command 0x0001
  | .crcByte => .command 0x0002
  | .crcBuf => .command 0x0003
  | .crcCheck => .command 0x0004
  | .encRead => .command 0x0005
  | .encWrite => .command 0x0006
  | .decRead => .command 0x0007
  | .decWrite => .command 0x0008
  | .reqRead unit addr count crc => .request (frameBytes (.reqRead unit addr count crc))
  | .reqWrite unit addr value crc => .request (frameBytes (.reqWrite unit addr value crc))
  | .rspRead unit byteCount regs crc => .response (frameBytes (.rspRead unit byteCount regs crc))
  | .rspWrite unit addr value crc => .response (frameBytes (.rspWrite unit addr value crc))
  | .rspReadExc unit code crc => .response (frameBytes (.rspReadExc unit code crc))
  | .rspWriteExc unit code crc => .response (frameBytes (.rspWriteExc unit code crc))

/-- The number of bytes of a code: two for a command word (R52), the frame's length otherwise (R65). -/
def Code.length : Code → Nat
  | .command _ => 2
  | .request bytes => bytes.length
  | .response bytes => bytes.length

/-- A response frame with this function code and zeros in every other field, at the length of R65 (one value for a read). -/
def zeroResponse (function : Byte) : List Byte :=
  if function.getLsbD 7 then [0, function, 0, 0, 0]
  else if function = Config.fcRead then [0, function, 0, 0, 0, 0, 0]
  else [0, function, 0, 0, 0, 0, 0, 0]

/-- A request frame with this function code and zeros in every other field (R58, R59). -/
def zeroRequest (function : Byte) : List Byte := [0, function, 0, 0, 0, 0, 0, 0]

/-- The code of an instruction whose bits are `w` as spec/opcode_table.json numbers them (log 6). A `CMD16` row has 16
bits, the command word. A frame row's numbered bits 7 to 0 are byte 1, the function code (R71), and its other bytes are
then zero; the two request rows have a ninth bit, which the table's reader made of `length_bytes` and which tells them from
a response and, where it is 1, from a command word. A pattern of a whole frame is taken as R58 and R71 write it,
byte 0 leftmost: 64 bits as a request, any other number of bytes as a response. -/
def tableCode (nbits w : Nat) : Code :=
  if nbits = 16 then
    if w = 0x0103 ∨ w = 0x0106 then .request (zeroRequest (BitVec.ofNat 8 w))
    else .command (BitVec.ofNat 16 w)
  else if nbits = 8 then .response (zeroResponse (BitVec.ofNat 8 w))
  else if nbits = 64 then .request (bytesOfNat 8 w)
  else .response (bytesOfNat (nbits / 8) w)

/-- The instruction the decoder reads from such bits; none where it refuses. -/
def decodeTableWord (nbits w : Nat) : Option Instr :=
  match decode (tableCode nbits w) with
  | .ok i => some i
  | .error _ => none

end Sys2Proof
end

