-- ==== Sys2Proof/Machine/State.lean ====
section
/-! DEFINITION. The state of the block (spec 10_state.md R10 to R28), its reset value (R31), and the host's pending script
(30_encoding.md R68 to R70, 70_reset_and_hazards.md R133). -/

namespace Sys2Proof.Machine

/-- The registers a host access can name (20_memory.md R34). An index outside the map is `reserved` (R35). -/
inductive Reg where
  | cmd
  | status
  | exc
  | unit
  | addr
  | count
  | value
  | data
  | crc
  | txLen
  | rxLen
  | resCount
  | txbuf (i : Fin 8)
  | rxbuf (i : Fin 256)
  | result (i : Fin 125)
  | reserved
  deriving DecidableEq, Repr

/-- One line of the host's script. `rd` and `wr` are `MemRead(a, 1)` and `MemWrite(a, 1, v)` (20_memory.md R36; the
triples of 30_encoding.md R70). `reset` is the environment's event, between two accesses (10_state.md R32). `request` and
`response` are the model's own pseudo-lines beside those of R69: a wire frame the host has the block build or decode
(log 4). -/
inductive HostEvent where
  | rd (index : Index)
  | wr (index : Index) (value : Word)
  | reset
  | request (bytes : List Byte)
  | response (bytes : List Byte)
  deriving DecidableEq, Repr

/-- The whole state: the scalar registers and buffers of R10 (`CMD` has no storage, R11), then three fields of the model's
own, which hold the run's input and output (R133) and count the resets. -/
structure State where
  /-- `STATUS` (R12). -/
  status : Nibble
  /-- `EXC` (R13). -/
  exc : Byte
  /-- `UNIT` (R14). -/
  unit : Byte
  /-- `ADDR` (R15). -/
  addr : Word
  /-- `COUNT` (R16). -/
  count : Word
  /-- `VALUE` (R17). -/
  value : Word
  /-- `DATA` (R18). -/
  data : Byte
  /-- `CRC` (R20). -/
  crc : Word
  /-- `TX_LEN` (R21). -/
  txLen : Nibble
  /-- `RX_LEN` (R22). -/
  rxLen : Byte
  /-- `RES_COUNT` (R23). -/
  resCount : Byte
  /-- `TXBUF[0..7]` (R24). -/
  txbuf : Vector Byte 8
  /-- `RXBUF[0..255]` (R25). -/
  rxbuf : Vector Byte 256
  /-- `RESULT[0..124]` (R26). -/
  result : Vector Word 125
  /-- The model's own: the host's pending script, next line first (R133; log 1). -/
  script : List HostEvent
  /-- The model's own: the values the script's reads returned, oldest first (R133; log 1). -/
  reads : List Word
  /-- The model's own: how many resets have happened since the first; it selects the free buffer contents (log 2). -/
  resets : Nat
  deriving DecidableEq, Repr

/-- `f k :: f (k+1) :: ...`, `n` entries. -/
def tabulate {α : Type} (f : Nat → α) : Nat → Nat → List α
  | 0, _ => []
  | n + 1, k => f k :: tabulate f n (k + 1)

theorem length_tabulate {α : Type} (f : Nat → α) (n k : Nat) : (tabulate f n k).length = n := by
  induction n generalizing k with
  | zero => rfl
  | succ n ih => simp [tabulate, ih]

/-- A buffer of `n` entries, entry `i` holding `f i`. -/
def bufferOf {α : Type} (n : Nat) (f : Nat → α) : Vector α n := ⟨⟨tabulate f n 0⟩, by simp [length_tabulate]⟩

/-- The state after reset number `k` (R31, R119): scalars 0 but `CRC` 0xFFFF, buffer contents free (log 2). -/
def State.resetAt (k : Nat) : State where
  status := 0
  exc := 0
  unit := 0
  addr := 0
  count := 0
  value := 0
  data := 0
  crc := 0xFFFF
  txLen := 0
  rxLen := 0
  resCount := 0
  txbuf := bufferOf 8 (Config.txbufAtReset k)
  rxbuf := bufferOf 256 (Config.rxbufAtReset k)
  result := bufferOf 125 (Config.resultAtReset k)
  script := []
  reads := []
  resets := k

/-- The machine right after reset: nothing pending, nothing read yet (log 1). -/
def State.reset : State := State.resetAt 0

/-- No fault exists: every access and every command, on every state, has a result and none can hang or be stuck
(20_memory.md R35, R37, R38; 70_reset_and_hazards.md R132; 93_implementation_defined.md, opening). A failure is a value in
`STATUS` (60_exceptions.md R106), hence a next state. -/
inductive Fault
  deriving DecidableEq, Repr

/-- Why a step has no meaning. -/
inductive Refusal where
  /-- The fixed name for an instruction without a meaning; no arm raises it. Safe. -/
  | notModelled (mnemonic : String)
  /-- Raised by the step on a pseudo-line `request` or `response` whose bytes are none of the six frame kinds, so that
  the spec names no command for it (log 7). Safe: such bytes reach the block through `wr` lines and a command. -/
  | notAFrame (why : String)
  deriving DecidableEq, Repr

/-- What a step answers. -/
abbrev Result := Host.Outcome State Fault Refusal

end Sys2Proof.Machine
end

