-- ==== Sys2Proof/Machine/Flags.lean ====
section
/-! DEFINITION. The block's only condition state: the codes of `STATUS` (spec 30_encoding.md R55, 10_state.md R12, R29). There are
no arithmetic flags, no condition codes and no predicates (R29). -/

namespace Sys2Proof.Machine

/-- `OK` (R55). -/
def okCode : Nibble := 0x0

/-- The seven failures a command can report (60_exceptions.md R103); `modbusException` carries the exception code byte. -/
inductive Failure where
  | invalidArgument
  | shortFrame
  | crcMismatch
  | functionMismatch
  | unexpectedEcho
  | modbusException (code : Byte)
  | illegalCommand
  deriving DecidableEq, Repr

/-- The failure's code in `STATUS` (R55, R103). -/
def failureCode : Failure → Nibble
  | .invalidArgument => 0x1
  | .shortFrame => 0x2
  | .crcMismatch => 0x3
  | .functionMismatch => 0x4
  | .unexpectedEcho => 0x5
  | .modbusException _ => 0x6
  | .illegalCommand => 0xF

/-- What a decode command records in `EXC` for the failure: the exception code for `ModbusException`, 0x00 for every
other (R98, R106). -/
def failureInfo : Failure → Byte
  | .invalidArgument => 0x00
  | .shortFrame => 0x00
  | .crcMismatch => 0x00
  | .functionMismatch => 0x00
  | .unexpectedEcho => 0x00
  | .modbusException code => code
  | .illegalCommand => 0x00

/-- The status codes the block produces; 0x7 to 0xE are reserved and "never produced" (R55, R56; log 9). -/
def producedCodes : List Nibble := [0x0, 0x1, 0x2, 0x3, 0x4, 0x5, 0x6, 0xF]

end Sys2Proof.Machine
end

