-- ==== Sys2Proof/Machine/Ops.lean ====
section
/-! DEFINITION. The named operations over the registers and buffers (spec 10_state.md, 20_memory.md R34 to R38), a failing
command's writes (60_exceptions.md R106) and the reset event (10_state.md R32). -/

namespace Sys2Proof.Machine

/-! ### One update per register -/

def State.setStatus (s : State) (v : Nibble) : State := { s with status := v }
def State.setExc (s : State) (v : Byte) : State := { s with exc := v }
def State.setUnit (s : State) (v : Byte) : State := { s with unit := v }
def State.setAddr (s : State) (v : Word) : State := { s with addr := v }
def State.setCount (s : State) (v : Word) : State := { s with count := v }
def State.setValue (s : State) (v : Word) : State := { s with value := v }
def State.setData (s : State) (v : Byte) : State := { s with data := v }
def State.setCrc (s : State) (v : Word) : State := { s with crc := v }
def State.setTxLen (s : State) (v : Nibble) : State := { s with txLen := v }
def State.setRxLen (s : State) (v : Byte) : State := { s with rxLen := v }
def State.setResCount (s : State) (v : Byte) : State := { s with resCount := v }
def State.setTxbuf (s : State) (v : Vector Byte 8) : State := { s with txbuf := v }
def State.setRxbuf (s : State) (v : Vector Byte 256) : State := { s with rxbuf := v }
def State.setResult (s : State) (v : Vector Word 125) : State := { s with result := v }
def State.setScript (s : State) (v : List HostEvent) : State := { s with script := v }
def State.setReads (s : State) (v : List Word) : State := { s with reads := v }

/-- Every command ends by writing `STATUS` exactly once (10_state.md R12); this is the successful end. -/
def succeed (s : State) : State := s.setStatus okCode

/-! ### Failing: the block's form of taking an exception (60_exceptions.md R106) -/

/-- The family of a failing command, which fixes what `raise` writes (R106). -/
inductive Family where
  /-- `CRC_CHECK`. -/
  | checker
  /-- `ENC_READ`. -/
  | encoder
  /-- `DEC_READ` and `DEC_WRITE`. -/
  | decoder
  /-- A reserved value written to `CMD`. -/
  | command
  deriving DecidableEq, Repr

/-- `raise S(info)` (R106): "This is the whole of trap entry: nothing is saved, no mode changes, control goes nowhere; the
command is simply over." Return from it is the next command, whatever it is (R107): there is nothing to restore. -/
def raise (family : Family) (failure : Failure) (s : State) : State :=
  match family with
  | .checker => s.setStatus (failureCode failure)
  | .encoder => (s.setStatus (failureCode failure)).setTxLen 0
  | .decoder => ((s.setStatus (failureCode failure)).setResCount 0).setExc (failureInfo failure)
  | .command => s.setStatus (failureCode failure)

/-- A write of a reserved value to `CMD` (30_encoding.md R54, 60_exceptions.md R115). -/
def illegalCommand (s : State) : State := raise .command .illegalCommand s

/-! ### The register space (20_memory.md R33 to R38) -/

/-- The register at an index (R34). -/
def regAt (index : Index) : Reg :=
  let n := index.toNat
  if n = 0x000 then .cmd
  else if n = 0x001 then .status
  else if n = 0x002 then .exc
  else if n = 0x003 then .unit
  else if n = 0x004 then .addr
  else if n = 0x005 then .count
  else if n = 0x006 then .value
  else if n = 0x007 then .data
  else if n = 0x008 then .crc
  else if n = 0x009 then .txLen
  else if n = 0x00A then .rxLen
  else if n = 0x00B then .resCount
  else if h : 0x010 ≤ n ∧ n - 0x010 < 8 then .txbuf ⟨n - 0x010, h.2⟩
  else if h : 0x100 ≤ n ∧ n - 0x100 < 256 then .rxbuf ⟨n - 0x100, h.2⟩
  else if h : 0x200 ≤ n ∧ n - 0x200 < 125 then .result ⟨n - 0x200, h.2⟩
  else .reserved

/-- The value a host read returns: the register zero-extended to 16 bits; 0x0000 for `CMD` and a reserved index (R35,
R37). -/
def readReg (r : Reg) (s : State) : Word :=
  match r with
  | .cmd => 0x0000
  | .status => s.status.zeroExtend 16
  | .exc => s.exc.zeroExtend 16
  | .unit => s.unit.zeroExtend 16
  | .addr => s.addr
  | .count => s.count
  | .value => s.value
  | .data => s.data.zeroExtend 16
  | .crc => s.crc
  | .txLen => s.txLen.zeroExtend 16
  | .rxLen => s.rxLen.zeroExtend 16
  | .resCount => s.resCount.zeroExtend 16
  | .txbuf i => s.txbuf[i].zeroExtend 16
  | .rxbuf i => s.rxbuf[i].zeroExtend 16
  | .result i => s.result[i]
  | .reserved => 0x0000

/-- `MemRead(a, 1)` (R37). -/
def hostRead (index : Index) (s : State) : Word := readReg (regAt index) s

/-- What a host write leaves in the register itself (R38): the low bits where the host may write, nothing elsewhere. `CMD`
stores nothing (10_state.md R11); the command it starts is Machine/HostAccess.lean's. -/
def writeReg (r : Reg) (v : Word) (s : State) : State :=
  match r with
  | .cmd => s
  | .status => s
  | .exc => s
  | .unit => s.setUnit (loByte v)
  | .addr => s.setAddr v
  | .count => s.setCount v
  | .value => s.setValue v
  | .data => s.setData (loByte v)
  | .crc => s
  | .txLen => s
  | .rxLen => s.setRxLen (loByte v)
  | .resCount => s
  | .txbuf _ => s
  | .rxbuf i => s.setRxbuf (s.rxbuf.set i (loByte v))
  | .result _ => s
  | .reserved => s

/-- The reset event (10_state.md R32): "After it the state is as in rule R31 whatever it was before." The script that is
left and the values read so far are the host's, not the block's, and stay (log 3). -/
def resetEvent (s : State) : State :=
  ((State.resetAt (s.resets + 1)).setScript s.script).setReads s.reads

end Sys2Proof.Machine
end

