-- ==== Sys2Proof/Machine/Operands.lean ====
section
/-! DEFINITION. How the commands reach their operands in the buffers (spec 20_memory.md R44, R45). Every other operand is a
register read by its name (30_encoding.md R52). -/

namespace Sys2Proof.Machine

/-- The received sequence `RXBUF[0 .. RX_LEN-1]` (10_state.md R25). -/
def received (s : State) : List Byte := s.rxbuf.toList.take s.rxLen.toNat

/-- A buffer with its first entries replaced, entry 0 first; the rest keeps its contents. -/
def overlayBuffer {α : Type} {n : Nat} (new : List α) (old : Vector α n) : Vector α n :=
  ⟨⟨overlay new old.toList⟩, by simp [length_overlay]⟩

/-- The register values of a read response, from byte offset 3 on: value `i` is `RXBUF[3+2i] * 256 + RXBUF[4+2i]`
(20_memory.md R43, 42_decoder.md R93). -/
def receivedValues (s : State) : List Word := wordsOf (s.rxbuf.toList.drop 3)

/-- Entries `0 .. COUNT-1` of `RESULT` take the received values, the rest stay (R26, 42_decoder.md R93). -/
def decodedResult (s : State) : Vector Word 125 :=
  overlayBuffer ((receivedValues s).take s.count.toNat) s.result

/-- Byte 1 has the exception marker (30_encoding.md R64). -/
def isException (s : State) : Bool := s.rxbuf[1].getLsbD 7

/-- The low seven bits of byte 1 are those of the request's function code (R64). -/
def sameFunction (function : Byte) (s : State) : Bool := (s.rxbuf[1] ^^^ function).extractLsb' 0 7 == 0

/-- Bytes 2 to 5 are the request's address and value (42_decoder.md R94). -/
def echoMatches (s : State) : Bool :=
  s.rxbuf[2] == hiByte s.addr && s.rxbuf[3] == loByte s.addr && s.rxbuf[4] == hiByte s.value && s.rxbuf[5] == loByte s.value

/-- `COUNT` is 1 to 125 (41_encoder.md R85, 42_decoder.md R93). All 16 bits are tested. -/
def countLegal (s : State) : Bool := decide (Config.minCount ≤ s.count.toNat ∧ s.count.toNat ≤ Config.maxCount)

/-- The eight bytes of a request in `TXBUF`: bytes 0 to 5, then their CRC low byte first (41_encoder.md R85, R86). -/
def requestFrame (unit function : Byte) (addr operand : Word) : Vector Byte 8 :=
  let c := crc16 (requestBody unit function addr operand)
  #v[unit, function, hiByte addr, loByte addr, hiByte operand, loByte operand, loByte c, hiByte c]

/-- `LDRX b0 ... b(n-1)` (30_encoding.md R69): `RXBUF[i] <- b_i` for each byte, then `RX_LEN <- n`. The spec has `n` at most
255; for a longer list, which no decoded line has, the writes keep what fits, as R38 has a write keep low bits (log 11). -/
def loadReceived (bytes : List Byte) (s : State) : State :=
  (s.setRxbuf (overlayBuffer bytes s.rxbuf)).setRxLen (BitVec.ofNat 8 bytes.length)

end Sys2Proof.Machine
end

