-- ==== Sys2Proof/Machine/Crc.lean ====
section
/-! DEFINITION. The CRC family: `CRC_INIT`, `CRC_BYTE`, `CRC_BUF`, `CRC_CHECK` (spec 40_crc.md R78 to R81). -/

namespace Sys2Proof.Machine

/-- `CRC_INIT` (R78). -/
def execCrcInit (s : State) : Result := .next (succeed (s.setCrc Config.crcInitValue))

/-- `CRC_BYTE` (R79). -/
def execCrcByte (s : State) : Result := .next (succeed (s.setCrc (crcByte s.crc s.data)))

/-- `CRC_BUF` (R80). -/
def execCrcBuf (s : State) : Result := .next (succeed (s.setCrc (crc16 (received s))))

/-- The first test of `CRC_CHECK` that fails, in the order of R104; none where the trailer is right (R81). -/
def checkTrailer (s : State) : Option Failure :=
  if s.rxLen.toNat < 2 then some .shortFrame
  else if crcOk (received s) then none
  else some .crcMismatch

/-- `CRC_CHECK` (R81). -/
def execCrcCheck (s : State) : Result :=
  match checkTrailer s with
  | some failure => .next (raise .checker failure s)
  | none => .next (succeed s)

end Sys2Proof.Machine
end

