-- ==== Sys2Proof/Machine/Decoder.lean ====
section
/-! DEFINITION. The decoder family: `DEC_READ`, `DEC_WRITE` (spec 42_decoder.md R91 to R94). -/

namespace Sys2Proof.Machine

/-- `decode_front(F, Lnorm, M)` (R92): the five checks both commands begin with, in this order; the first that fails. It
writes nothing. -/
def decodeFront (function : Byte) (normalLength : Nat) (mismatch : Failure) (s : State) : Option Failure :=
  if s.rxLen.toNat < Config.absMinFrame then some .shortFrame
  else if s.rxLen.toNat < (if isException s then Config.absMinFrame else normalLength) then some .shortFrame
  else if s.rxbuf[0] != s.unit || !sameFunction function s then some mismatch
  else if !crcOk (received s) then some .crcMismatch
  else if isException s then some (.modbusException s.rxbuf[2])
  else none

/-- The first test of `DEC_READ` that fails (R93, R104). -/
def checkReadResponse (s : State) : Option Failure :=
  if countLegal s then decodeFront Config.fcRead (5 + 2 * s.count.toNat) .functionMismatch s
  else some .invalidArgument

/-- The first test of `DEC_WRITE` that fails (R94, R104): the address and value are compared last. -/
def checkWriteResponse (s : State) : Option Failure :=
  match decodeFront Config.fcWrite Config.requestLength .unexpectedEcho s with
  | some failure => some failure
  | none => if echoMatches s then none else some .unexpectedEcho

/-- The whole effect of `DEC_READ` (R93, R98). `COUNT` is at most 125 where it is written to the 8-bit `RES_COUNT`. -/
def decodeRead (s : State) : State :=
  match checkReadResponse s with
  | some failure => raise .decoder failure s
  | none => succeed (((s.setResult (decodedResult s)).setResCount (loByte s.count)).setExc 0x00)

/-- The whole effect of `DEC_WRITE` (R94, R98). -/
def decodeWrite (s : State) : State :=
  match checkWriteResponse s with
  | some failure => raise .decoder failure s
  | none => succeed ((s.setResCount 0).setExc 0x00)

/-- `DEC_READ` (R93). -/
def execDecRead (s : State) : Result := .next (decodeRead s)

/-- `DEC_WRITE` (R94). -/
def execDecWrite (s : State) : Result := .next (decodeWrite s)

end Sys2Proof.Machine
end

