-- ==== Sys2Proof/Machine/Encoder.lean ====
section
/-! DEFINITION. The encoder family: `ENC_READ`, `ENC_WRITE` (spec 41_encoder.md R85, R86). -/

namespace Sys2Proof.Machine

/-- The frame is in `TXBUF` and valid for transmission (R85, R86). -/
def putRequest (frame : Vector Byte 8) (s : State) : State := succeed ((s.setTxbuf frame).setTxLen 8)

/-- The whole effect of `ENC_READ` (R85): the count is checked and nothing else (R88). -/
def encodeRead (s : State) : State :=
  if countLegal s then putRequest (requestFrame s.unit Config.fcRead s.addr s.count) s
  else raise .encoder .invalidArgument s

/-- The whole effect of `ENC_WRITE` (R86): it cannot fail. -/
def encodeWrite (s : State) : State := putRequest (requestFrame s.unit Config.fcWrite s.addr s.value) s

/-- `ENC_READ` (R85). -/
def execEncRead (s : State) : Result := .next (encodeRead s)

/-- `ENC_WRITE` (R86). -/
def execEncWrite (s : State) : Result := .next (encodeWrite s)

end Sys2Proof.Machine
end

