-- ==== Sys2Proof/Machine/FrameLines.lean ====
section
/-! DEFINITION. The six frame rows of the opcode table (spec 30_encoding.md R58 to R62). The spec calls them data formats, not
commands (R51), and the table's `direction` says which command builds or decodes each. A frame's meaning here is the model's
choice (log 4): the host accesses that present this frame to the block, taken together, ended by that command. For a request
these are the operand writes and the encode command of R123 and R124; for a response, `LDRX` (R69) and the decode command. -/

namespace Sys2Proof.Machine

/-- `REQ_READ` (R58), "built by ENC_READ": `WR UNIT`, `WR ADDR`, `WR COUNT`, `CMD ENC_READ` (R123). The trailer is no operand:
the block computes it (R85; log 5). -/
def execReqRead (unit : Byte) (addr count _crc : Word) (s : State) : Result :=
  .next (encodeRead (((s.setUnit unit).setAddr addr).setCount count))

/-- `REQ_WRITE` (R59), "built by ENC_WRITE": `WR UNIT`, `WR ADDR`, `WR VALUE`, `CMD ENC_WRITE` (R124; log 5). -/
def execReqWrite (unit : Byte) (addr value _crc : Word) (s : State) : Result :=
  .next (encodeWrite (((s.setUnit unit).setAddr addr).setValue value))

/-- `RSP_READ` (R60), "decoded by DEC_READ": `LDRX` of its bytes, `CMD DEC_READ` (R69, R123). -/
def execRspRead (unit byteCount : Byte) (regs : List Word) (crc : Word) (s : State) : Result :=
  .next (decodeRead (loadReceived (frameBytes (.rspRead unit byteCount regs crc)) s))

/-- `RSP_WRITE` (R61), "decoded by DEC_WRITE": `LDRX` of its bytes, `CMD DEC_WRITE` (R69, R124). -/
def execRspWrite (unit : Byte) (addr value crc : Word) (s : State) : Result :=
  .next (decodeWrite (loadReceived (frameBytes (.rspWrite unit addr value crc)) s))

/-- `RSP_READ_EXC` (R62), "decoded by DEC_READ": `LDRX` of its bytes, `CMD DEC_READ`. -/
def execRspReadExc (unit code : Byte) (crc : Word) (s : State) : Result :=
  .next (decodeRead (loadReceived (frameBytes (.rspReadExc unit code crc)) s))

/-- `RSP_WRITE_EXC` (R62), "decoded by DEC_WRITE": `LDRX` of its bytes, `CMD DEC_WRITE`. -/
def execRspWriteExc (unit code : Byte) (crc : Word) (s : State) : Result :=
  .next (decodeWrite (loadReceived (frameBytes (.rspWriteExc unit code crc)) s))

end Sys2Proof.Machine
end

