-- ==== Sys2Proof/Machine/Dispatch.lean ====
section
/-! DEFINITION. One arm per row of spec/opcode_table.json. -/

namespace Sys2Proof.Machine

/-- The meaning of every row: the eight commands (30_encoding.md R53) and the six frames (R58 to R62; log 4). -/
def exec (i : Instr) (s : State) : Host.Outcome State Fault Refusal :=
  match i with
  | .crcInit => Sys2Proof.Machine.execCrcInit s
  | .crcByte => Sys2Proof.Machine.execCrcByte s
  | .crcBuf => Sys2Proof.Machine.execCrcBuf s
  | .crcCheck => Sys2Proof.Machine.execCrcCheck s
  | .encRead => Sys2Proof.Machine.execEncRead s
  | .encWrite => Sys2Proof.Machine.execEncWrite s
  | .decRead => Sys2Proof.Machine.execDecRead s
  | .decWrite => Sys2Proof.Machine.execDecWrite s
  | .reqRead unit addr count crc => Sys2Proof.Machine.execReqRead unit addr count crc s
  | .reqWrite unit addr value crc => Sys2Proof.Machine.execReqWrite unit addr value crc s
  | .rspRead unit byteCount regs crc => Sys2Proof.Machine.execRspRead unit byteCount regs crc s
  | .rspWrite unit addr value crc => Sys2Proof.Machine.execRspWrite unit addr value crc s
  | .rspReadExc unit code crc => Sys2Proof.Machine.execRspReadExc unit code crc s
  | .rspWriteExc unit code crc => Sys2Proof.Machine.execRspWriteExc unit code crc s

end Sys2Proof.Machine
end

