-- ==== Sys2Proof/Machine/HostAccess.lean ====
section
/-! DEFINITION. One line of the host's script (spec 20_memory.md R37 to R39, 10_state.md R32), and how an instruction is
placed as the next line. -/

namespace Sys2Proof.Machine

/-- A host write of `v` to `CMD` (R39): the command whose code is `v` runs to completion; any other value is illegal and
changes `STATUS` only (30_encoding.md R54). -/
def runCommand (v : Word) (s : State) : Result :=
  match decode (.command v) with
  | .ok i => exec i s
  | .error _ => .next (illegalCommand s)

/-- `MemWrite(a, 1, v)` (R38). -/
def hostWrite (index : Index) (v : Word) (s : State) : Result :=
  if regAt index = .cmd then runCommand v s else .next (writeReg (regAt index) v s)

/-- The refusal of a pseudo-line that offers no frame (log 7). -/
def refuseFrame : DecodeError → Result
  | .reservedCommand => .refused (.notAFrame "reserved command")
  | .wrongLength => .refused (.notAFrame "wrong length")
  | .wrongFunction => .refused (.notAFrame "wrong function code")

/-- A wire frame offered to the block (log 4): the frame its bytes decode to, executed. -/
def runFrame (code : Code) (s : State) : Result :=
  match decode code with
  | .ok i => exec i s
  | .error why => refuseFrame why

/-- One line of the script. A read appends its value to the values read (R133) and changes nothing else (R37). -/
def serve (e : HostEvent) (s : State) : Result :=
  match e with
  | .rd index => .next (s.setReads (s.reads ++ [hostRead index s]))
  | .wr index v => hostWrite index v s
  | .reset => .next (resetEvent s)
  | .request bytes => runFrame (.request bytes) s
  | .response bytes => runFrame (.response bytes) s

/-- The next line of the script, taken off it. With no line left nothing happens (R108, R133; log 1). -/
def serveNext (s : State) : Result :=
  match s.script with
  | [] => .next s
  | e :: rest => serve e (s.setScript rest)

/-- The script line that presents a code to the block: a command is a write to `CMD` (10_state.md R11). -/
def eventOf : Code → HostEvent
  | .command word => .wr 0x000 word
  | .request bytes => .request bytes
  | .response bytes => .response bytes

/-- Lines served one after another, up to the first that does not answer a next state: the run of a host script (R46,
70_reset_and_hazards.md R133). -/
def runLines : List HostEvent → State → Result
  | [], s => .next s
  | e :: es, s =>
    match serve e s with
    | .next t => runLines es t
    | .fault r => .fault r
    | .refused r => .refused r

/-- The `WR RXBUF[k]`, `WR RXBUF[k+1]`, ... lines of `LDRX` (30_encoding.md R69). -/
def rxbufLines : Nat → List Byte → List HostEvent
  | _, [] => []
  | k, b :: bs => .wr (BitVec.ofNat 10 (0x100 + k)) (b.zeroExtend 16) :: rxbufLines (k + 1) bs

/-- `LDRX b0 ... b(n-1)` written out (R69). -/
def ldrxLines (bytes : List Byte) : List HostEvent :=
  rxbufLines 0 bytes ++ [.wr 0x00A (BitVec.ofNat 16 bytes.length)]

/-- The plain host accesses a frame's pseudo-line stands for (log 4): the operand writes and encode command of
70_reset_and_hazards.md R123 and R124, or `LDRX` and the decode command. A command is its own write to `CMD`. -/
def linesOf : Instr → List HostEvent
  | .crcInit => [.wr 0x000 0x0001]
  | .crcByte => [.wr 0x000 0x0002]
  | .crcBuf => [.wr 0x000 0x0003]
  | .crcCheck => [.wr 0x000 0x0004]
  | .encRead => [.wr 0x000 0x0005]
  | .encWrite => [.wr 0x000 0x0006]
  | .decRead => [.wr 0x000 0x0007]
  | .decWrite => [.wr 0x000 0x0008]
  | .reqRead unit addr count _ =>
    [.wr 0x003 (unit.zeroExtend 16), .wr 0x004 addr, .wr 0x005 count, .wr 0x000 0x0005]
  | .reqWrite unit addr value _ =>
    [.wr 0x003 (unit.zeroExtend 16), .wr 0x004 addr, .wr 0x006 value, .wr 0x000 0x0006]
  | .rspRead unit byteCount regs crc => ldrxLines (frameBytes (.rspRead unit byteCount regs crc)) ++ [.wr 0x000 0x0007]
  | .rspWrite unit addr value crc => ldrxLines (frameBytes (.rspWrite unit addr value crc)) ++ [.wr 0x000 0x0008]
  | .rspReadExc unit code crc => ldrxLines (frameBytes (.rspReadExc unit code crc)) ++ [.wr 0x000 0x0007]
  | .rspWriteExc unit code crc => ldrxLines (frameBytes (.rspWriteExc unit code crc)) ++ [.wr 0x000 0x0008]

/-- The streaming form of a CRC (40_crc.md R83): for each byte, `WR DATA` and `CMD CRC_BYTE`. -/
def crcStreamLines : List Byte → List HostEvent
  | [] => []
  | b :: bs => .wr 0x007 (b.zeroExtend 16) :: .wr 0x000 0x0002 :: crcStreamLines bs

end Sys2Proof.Machine
end

