-- ==== Sys2Proof/Machine/Step.lean ====
section
/-! DEFINITION. One step: the next line of the host's script (spec 20_memory.md R46, 70_reset_and_hazards.md R133). -/

namespace Sys2Proof.Machine

/-- One step of the machine: the host's next access, complete before the one after it (R39, R46). -/
def step (s : State) : Host.Outcome State Fault Refusal := serveNext s

/-- The state in which the very next step runs the instruction with these bits: its line stands in front of the script
(log 1, log 6). Nothing else changes. -/
def State.withFetchWord (s : State) (nbits w : Nat) : State := s.setScript (eventOf (tableCode nbits w) :: s.script)

end Sys2Proof.Machine
end

