-- ==== Sys2Proof/Safety.lean ====
section
/-! DEFINITION. What a safe run is: the values the registers may take (spec 10_state.md R21, R23, R28; 30_encoding.md R56), which
buffer entries mean anything, and the host's duties that a state can show (70_reset_and_hazards.md R122, R125, R126). -/

namespace Sys2Proof.Safety

open Sys2Proof.Machine

/-- What every register that the block writes keeps to, whatever the host does. -/
structure RegistersLegal (s : State) : Prop where
  /-- `STATUS` is never a reserved code (30_encoding.md R56). -/
  status_produced : s.status ∈ producedCodes
  /-- `TX_LEN` "takes only the values 0 and 8" (10_state.md R21). -/
  txLen_zero_or_eight : s.txLen = 0 ∨ s.txLen = 8
  /-- `RES_COUNT` "takes the values 0 to 125" (R23). -/
  resCount_le : s.resCount.toNat ≤ Config.maxCount
  /-- When `TX_LEN` is 8 the eight entries of `TXBUF` are a frame with a right trailer (R24, 41_encoder.md R87). -/
  frame_checked : s.txLen = 8 → crcOk s.txbuf.toList = true
  /-- That frame is one of the two request kinds: "It cannot produce a response, an exception, or a frame with another
  function code" (30_encoding.md R67). -/
  frame_is_request : s.txLen = 8 → s.txbuf[1] = Config.fcRead ∨ s.txbuf[1] = Config.fcWrite
  /-- An exception code and a result never stand together: whenever `EXC` is not 0x00, `RES_COUNT` is 0 (42_decoder.md
  R98). -/
  exc_without_results : s.exc ≠ 0 → s.resCount = 0

/-- `TXBUF` may be transmitted (70_reset_and_hazards.md R126): the last encode left `OK` and eight bytes. -/
def Transmittable (s : State) : Prop := s.status = okCode ∧ s.txLen = 8

/-- Entry `i` of `RESULT` is a result (10_state.md R28). -/
def ResultValid (s : State) (i : Fin 125) : Prop := i.val < s.resCount.toNat

/-- The host has loaded exactly these bytes as the received sequence (R122, R128). -/
def Loaded (s : State) (bytes : List Byte) : Prop := received s = bytes

/-- Two states hold the same bytes below `RX_LEN`, and the same `RX_LEN`: all a command can see of `RXBUF`
(10_state.md R25). -/
def SameReceived (s t : State) : Prop :=
  s.rxLen = t.rxLen ∧ ∀ i : Fin 256, i.val < s.rxLen.toNat → s.rxbuf[i] = t.rxbuf[i]

/-- Two states hold the same request (R91, R125): `UNIT`, `ADDR`, `COUNT`, `VALUE`. -/
def SameRequest (s t : State) : Prop :=
  s.unit = t.unit ∧ s.addr = t.addr ∧ s.count = t.count ∧ s.value = t.value

/-- Registers and buffers the host alone writes (R27, last row). -/
def SameHostInputs (s t : State) : Prop :=
  SameRequest s t ∧ s.data = t.data ∧ s.rxLen = t.rxLen ∧ s.rxbuf = t.rxbuf

/-- The model's own fields: the script that is left, the values read, the reset counter. -/
def SameRunFields (s t : State) : Prop :=
  s.script = t.script ∧ s.reads = t.reads ∧ s.resets = t.resets

/-- The block's outputs of the encoder family (R27). -/
def SameEncoderOutputs (s t : State) : Prop := s.txLen = t.txLen ∧ s.txbuf = t.txbuf

/-- The block's outputs of the decoder family (R27). -/
def SameDecoderOutputs (s t : State) : Prop :=
  s.exc = t.exc ∧ s.resCount = t.resCount ∧ s.result = t.result

/-- The instruction is one of the eight commands, which alone have a code for `CMD` (30_encoding.md R53). -/
def IsCommand (i : Instr) : Prop := ∃ word, encode i = .command word

end Sys2Proof.Safety
end

