-- ==== Sys2Proof/Certificates/Slice0/Obligations.lean ====
section
/-! DEFINITION. The statements for the provers. Each is about the block, not about a program; each docstring names the rule of
spec/ it formalises, or says that it rests on a choice of the model (log <n>) or on a passage the spec marks as derived. -/

open Sys2Proof Sys2Proof.Machine Sys2Proof.Safety

/-! ### The pure functions (40_crc.md) -/

/-- 40_crc.md section 1, `crc_bit`, on numbers: halve; if the bit shifted out was 1, exclusive-or with 0xA001. The spec marks
where the condition and the exclusive-or stand as general knowledge it adopts (D10; log 8). -/
def Obligations.CrcBitShiftsRightAndFoldsTheConstant : Prop :=
  ∀ c : Word, (crcBit c).toNat = if c.toNat % 2 = 1 then (c.toNat / 2) ^^^ 0xA001 else c.toNat / 2

/-- 40_crc.md section 1, `crc_byte`: the byte enters the low eight bits, then exactly eight bit steps (log 8). -/
def Obligations.CrcByteIsEightBitSteps : Prop :=
  ∀ (c : Word) (b : Byte), crcByte c b = crcBit^[8] (c ^^^ b.zeroExtend 16)

/-- 40_crc.md section 1, `crc16`: 0xFFFF on the empty sequence, and the last byte fed last (log 8). -/
def Obligations.Crc16FeedsBytesInOrder : Prop :=
  crc16 [] = 0xFFFF ∧ ∀ (s : List Byte) (b : Byte), crc16 (s ++ [b]) = crcByte (crc16 s) b

/-- 40_crc.md R76: the CRC of all bytes before the trailer, compared with the trailer read low byte first. -/
def Obligations.CrcOkComparesTheTrailerLowByteFirst : Prop :=
  ∀ (s : List Byte) (h : 2 ≤ s.length),
    crcOk s = true ↔
      (crc16 (s.take (s.length - 2))).toNat =
        (s[s.length - 2]'(by omega)).toNat + 256 * (s[s.length - 1]'(by omega)).toNat

/-- 40_crc.md section 1, the residue law (its R77, marked derived): a sequence followed by its own CRC, low byte first,
brings the register to zero; so the verifier may test the register over the whole sequence for zero. -/
def Obligations.ResidueLaw : Prop :=
  (∀ m : List Byte, crc16 (m ++ [loByte (crc16 m), hiByte (crc16 m)]) = 0x0000) ∧
  (∀ s : List Byte, 2 ≤ s.length → (crcOk s = true ↔ crc16 s = 0x0000))

/-- 30_encoding.md section 5 and 20_memory.md section 3: a payload field is `hi * 256 + lo`, is split into `v[15:8]` and
`v[7:0]`, and the two undo each other. In the layouts themselves, address, count and value of an eight-byte frame and the
values of a read response have their high byte first, and the trailer of a frame, built or written out, its low byte
first. -/
def Obligations.FieldsAreSplitAndAssembled : Prop :=
  (∀ hi lo : Byte, (joinBytes hi lo).toNat = hi.toNat * 256 + lo.toNat ∧ hiByte (joinBytes hi lo) = hi ∧
    loByte (joinBytes hi lo) = lo) ∧
  (∀ v : Word, (hiByte v).toNat = v.toNat / 256 ∧ (loByte v).toNat = v.toNat % 256 ∧
    joinBytes (hiByte v) (loByte v) = v) ∧
  (∀ (unit function : Byte) (addr operand : Word), requestBody unit function addr operand =
    [unit, function, hiByte addr, loByte addr, hiByte operand, loByte operand]) ∧
  (∀ (w : Word) (ws : List Word), wordsBytes (w :: ws) = hiByte w :: loByte w :: wordsBytes ws) ∧
  (∀ (i : Instr) (crc : Word), frameCrc? i = some crc → frameBytes i = frameBody i ++ [loByte crc, hiByte crc]) ∧
  (∀ body : List Byte, withTrailer body = body ++ [loByte (crc16 body), hiByte (crc16 body)])

/-! ### The eight commands: code, result, and the whole rest of the state unchanged -/

/-- 40_crc.md R78. -/
def Obligations.CrcInitLoadsTheStartValue : Prop :=
  ∀ s : State,
    decode (.command 0x0001) = .ok .crcInit ∧ exec .crcInit s = .next { s with crc := 0xFFFF, status := 0x0 }

/-- 40_crc.md R79. -/
def Obligations.CrcByteFeedsData : Prop :=
  ∀ s : State,
    decode (.command 0x0002) = .ok .crcByte ∧
    exec .crcByte s = .next { s with crc := crcByte s.crc s.data, status := 0x0 }

/-- 40_crc.md R80. The received sequence is the first `RX_LEN` entries of `RXBUF`, entry 0 first. -/
def Obligations.CrcBufTakesTheReceivedBytes : Prop :=
  ∀ s : State,
    decode (.command 0x0003) = .ok .crcBuf ∧
    exec .crcBuf s = .next { s with crc := crc16 (s.rxbuf.toList.take s.rxLen.toNat), status := 0x0 }

/-- 40_crc.md R81: `ShortFrame` below two bytes, then `CrcMismatch`, else `OK`; only `STATUS` is written. -/
def Obligations.CrcCheckVerifiesTheTrailer : Prop :=
  ∀ s : State,
    let code : Nibble :=
      if s.rxLen.toNat < 2 then 0x2
      else if crcOk (s.rxbuf.toList.take s.rxLen.toNat) = true then 0x0
      else 0x3
    decode (.command 0x0004) = .ok .crcCheck ∧ exec .crcCheck s = .next { s with status := code }

/-- 41_encoder.md R85: the eight bytes written out for a legal count, `InvalidArgument` for any other. -/
def Obligations.EncReadBuildsTheReadRequest : Prop :=
  ∀ s : State,
    let c := crc16 [s.unit, 0x03, s.addr.extractLsb' 8 8, s.addr.extractLsb' 0 8, s.count.extractLsb' 8 8,
      s.count.extractLsb' 0 8]
    decode (.command 0x0005) = .ok .encRead ∧
    (1 ≤ s.count.toNat → s.count.toNat ≤ 125 →
      exec .encRead s = .next { s with
        txbuf := #v[s.unit, 0x03, s.addr.extractLsb' 8 8, s.addr.extractLsb' 0 8, s.count.extractLsb' 8 8,
          s.count.extractLsb' 0 8, c.extractLsb' 0 8, c.extractLsb' 8 8],
        txLen := 8, status := 0x0 }) ∧
    (s.count.toNat < 1 ∨ 125 < s.count.toNat → exec .encRead s = .next { s with status := 0x1, txLen := 0 })

/-- 41_encoder.md R86: the eight bytes written out; it cannot fail and does not read `COUNT`. -/
def Obligations.EncWriteBuildsTheWriteRequest : Prop :=
  ∀ s : State,
    let c := crc16 [s.unit, 0x06, s.addr.extractLsb' 8 8, s.addr.extractLsb' 0 8, s.value.extractLsb' 8 8,
      s.value.extractLsb' 0 8]
    decode (.command 0x0006) = .ok .encWrite ∧
    exec .encWrite s = .next { s with
      txbuf := #v[s.unit, 0x06, s.addr.extractLsb' 8 8, s.addr.extractLsb' 0 8, s.value.extractLsb' 8 8,
        s.value.extractLsb' 0 8, c.extractLsb' 0 8, c.extractLsb' 8 8],
      txLen := 8, status := 0x0 }

/-- 42_decoder.md R93 with the tests in the order the rule lists them, each written on the bytes: on every state the one
outcome, every register it writes, and all else unchanged. -/
def Obligations.DecReadDecodesTheReadResponse : Prop :=
  ∀ s : State,
    let n := s.rxLen.toNat
    let k := s.count.toNat
    let failed (code : Nibble) (info : Byte) : State := { s with status := code, resCount := 0, exc := info }
    let values : Vector Word 125 := Vector.ofFn fun i : Fin 125 =>
      if i.val < k then
        BitVec.ofNat 16 ((s.rxbuf[3 + 2 * i.val]'(by omega)).toNat * 256 + (s.rxbuf[4 + 2 * i.val]'(by omega)).toNat)
      else s.result[i]
    decode (.command 0x0007) = .ok .decRead ∧
    exec .decRead s = .next (
      if k < 1 ∨ 125 < k then failed 0x1 0x00
      else if n < 5 then failed 0x2 0x00
      else if s.rxbuf[1].toNat < 0x80 ∧ n < 5 + 2 * k then failed 0x2 0x00
      else if s.rxbuf[0] ≠ s.unit ∨ (s.rxbuf[1] ≠ 0x03 ∧ s.rxbuf[1] ≠ 0x83) then failed 0x4 0x00
      else if crcOk (s.rxbuf.toList.take n) = false then failed 0x3 0x00
      else if s.rxbuf[1] = 0x83 then failed 0x6 s.rxbuf[2]
      else { s with result := values, resCount := BitVec.ofNat 8 k, exc := 0x00, status := 0x0 })

/-- 42_decoder.md R94, in the same form; bytes 2 to 5 are compared after the trailer and the exception test. -/
def Obligations.DecWriteDecodesTheWriteResponse : Prop :=
  ∀ s : State,
    let n := s.rxLen.toNat
    let failed (code : Nibble) (info : Byte) : State := { s with status := code, resCount := 0, exc := info }
    decode (.command 0x0008) = .ok .decWrite ∧
    exec .decWrite s = .next (
      if n < 5 then failed 0x2 0x00
      else if s.rxbuf[1].toNat < 0x80 ∧ n < 8 then failed 0x2 0x00
      else if s.rxbuf[0] ≠ s.unit ∨ (s.rxbuf[1] ≠ 0x06 ∧ s.rxbuf[1] ≠ 0x86) then failed 0x5 0x00
      else if crcOk (s.rxbuf.toList.take n) = false then failed 0x3 0x00
      else if s.rxbuf[1] = 0x86 then failed 0x6 s.rxbuf[2]
      else if s.rxbuf[2].toNat * 256 + s.rxbuf[3].toNat ≠ s.addr.toNat ∨
        s.rxbuf[4].toNat * 256 + s.rxbuf[5].toNat ≠ s.value.toNat then failed 0x5 0x00
      else { s with resCount := 0, exc := 0x00, status := 0x0 })

/-! ### Reserved codes and the register space (30_encoding.md R54, 20_memory.md) -/

/-- 30_encoding.md section 2: exactly the words 0x0001 to 0x0008 are commands, compared over all 16 bits. -/
def Obligations.ExactlyEightWordsAreCommands : Prop :=
  ∀ w : Word, (∃ i, decode (.command w) = .ok i) ↔ 1 ≤ w.toNat ∧ w.toNat ≤ 8

/-- 30_encoding.md R54 and 60_exceptions.md R115: a reserved value written to `CMD` changes `STATUS` only. -/
def Obligations.ReservedCodeSetsIllegalCommandOnly : Prop :=
  ∀ (s : State) (v : Word), v = 0x0000 ∨ 0x0009 ≤ v.toNat →
    hostWrite 0x000 v s = .next { s with status := 0xF }

/-- 20_memory.md R37 over the map of R34: the value read has the register's value in its low bits and zeros above; `CMD` and
the reserved indices read 0; a read changes no state of the block and can be repeated. -/
def Obligations.HostReadReturnsTheRegisterZeroExtended : Prop :=
  ∀ s : State,
    hostRead 0x000 s = 0x0000 ∧ (hostRead 0x001 s).toNat = s.status.toNat ∧ (hostRead 0x002 s).toNat = s.exc.toNat ∧
    (hostRead 0x003 s).toNat = s.unit.toNat ∧ hostRead 0x004 s = s.addr ∧ hostRead 0x005 s = s.count ∧
    hostRead 0x006 s = s.value ∧ (hostRead 0x007 s).toNat = s.data.toNat ∧ hostRead 0x008 s = s.crc ∧
    (hostRead 0x009 s).toNat = s.txLen.toNat ∧ (hostRead 0x00A s).toNat = s.rxLen.toNat ∧
    (hostRead 0x00B s).toNat = s.resCount.toNat ∧
    (∀ i : Fin 8, (hostRead (BitVec.ofNat 10 (0x010 + i.val)) s).toNat = s.txbuf[i].toNat) ∧
    (∀ i : Fin 256, (hostRead (BitVec.ofNat 10 (0x100 + i.val)) s).toNat = s.rxbuf[i].toNat) ∧
    (∀ i : Fin 125, hostRead (BitVec.ofNat 10 (0x200 + i.val)) s = s.result[i]) ∧
    (∀ a : Index, (0x00C ≤ a.toNat ∧ a.toNat ≤ 0x00F) ∨ (0x018 ≤ a.toNat ∧ a.toNat ≤ 0x0FF) ∨ 0x27D ≤ a.toNat →
      hostRead a s = 0x0000) ∧
    (∀ a : Index, ∃ t, serve (.rd a) s = .next t ∧ (∀ b, hostRead b t = hostRead b s) ∧
      SameHostInputs s t ∧ SameEncoderOutputs s t ∧ SameDecoderOutputs s t ∧ t.status = s.status ∧ t.crc = s.crc)

/-- 70_reset_and_hazards.md section 4: a run's outcome holds "the list of values its reads returned". That the list is a field
of the state, and that each read appends its value to it, is the model's choice (log 1). -/
def Obligations.HostReadIsRecorded : Prop :=
  ∀ (s : State) (a : Index), serve (.rd a) s = .next { s with reads := s.reads ++ [hostRead a s] }

/-- 20_memory.md R38: every writable register keeps the low bits, a write to `CMD` runs the command or is illegal, and a
write to a read-only register or a reserved index changes nothing. -/
def Obligations.HostWriteKeepsTheLowBits : Prop :=
  ∀ (s : State) (v : Word),
    hostWrite 0x003 v s = .next { s with unit := BitVec.ofNat 8 (v.toNat % 256) } ∧
    hostWrite 0x004 v s = .next { s with addr := v } ∧
    hostWrite 0x005 v s = .next { s with count := v } ∧
    hostWrite 0x006 v s = .next { s with value := v } ∧
    hostWrite 0x007 v s = .next { s with data := BitVec.ofNat 8 (v.toNat % 256) } ∧
    hostWrite 0x00A v s = .next { s with rxLen := BitVec.ofNat 8 (v.toNat % 256) } ∧
    (∀ i : Fin 256, hostWrite (BitVec.ofNat 10 (0x100 + i.val)) v s =
      .next { s with rxbuf := s.rxbuf.set i (BitVec.ofNat 8 (v.toNat % 256)) }) ∧
    (∀ i, decode (.command v) = .ok i → hostWrite 0x000 v s = exec i s) ∧
    (∀ why, decode (.command v) = .error why → hostWrite 0x000 v s = .next { s with status := 0xF }) ∧
    hostWrite 0x001 v s = .next s ∧ hostWrite 0x002 v s = .next s ∧ hostWrite 0x008 v s = .next s ∧
    hostWrite 0x009 v s = .next s ∧ hostWrite 0x00B v s = .next s ∧
    (∀ i : Fin 8, hostWrite (BitVec.ofNat 10 (0x010 + i.val)) v s = .next s) ∧
    (∀ i : Fin 125, hostWrite (BitVec.ofNat 10 (0x200 + i.val)) v s = .next s) ∧
    (∀ a : Index, (0x00C ≤ a.toNat ∧ a.toNat ≤ 0x00F) ∨ (0x018 ≤ a.toNat ∧ a.toNat ≤ 0x0FF) ∨ 0x27D ≤ a.toNat →
      hostWrite a v s = .next s)

/-- 20_memory.md section 2: a host write other than to `CMD` leaves every other register of the space reading as before,
every byte of every buffer among them, and touches none of the model's own fields. -/
def Obligations.HostWriteLeavesOtherRegistersAlone : Prop :=
  ∀ (a b : Index) (v : Word) (s : State), a ≠ 0x000 → b ≠ a →
    ∃ t, hostWrite a v s = .next t ∧ hostRead b t = hostRead b s ∧ SameRunFields s t

/-- 20_memory.md section 5: a read returns the value left by the write before it, cut to the register's width. -/
def Obligations.ReadReturnsTheLatestWrite : Prop :=
  ∀ (s : State) (v : Word) (a : Index),
    (a = 0x004 ∨ a = 0x005 ∨ a = 0x006 →
      ∃ t, runLines [.wr a v, .rd a] s = .next t ∧ t.reads = s.reads ++ [v]) ∧
    (a = 0x003 ∨ a = 0x007 ∨ a = 0x00A ∨ (0x100 ≤ a.toNat ∧ a.toNat ≤ 0x1FF) →
      ∃ t, runLines [.wr a v, .rd a] s = .next t ∧ t.reads = s.reads ++ [BitVec.ofNat 16 (v.toNat % 256)])

/-! ### Who writes what, and what a failure writes -/

/-- 10_state.md R27, row by row: `CRC` has one family of writers, `TX_LEN` and `TXBUF` one, `EXC` and `RES_COUNT` one,
`RESULT` only a successful `DEC_READ`; no command writes a register of the host's; a reserved code writes none of them; no
host write changes an output of the block. -/
def Obligations.EachOutputHasOneFamilyOfWriters : Prop :=
  (∀ (i : Instr) (s : State), IsCommand i → ∃ t, exec i s = .next t ∧
    (i ≠ .crcInit → i ≠ .crcByte → i ≠ .crcBuf → t.crc = s.crc) ∧
    (i ≠ .encRead → i ≠ .encWrite → SameEncoderOutputs s t) ∧
    (i ≠ .decRead → i ≠ .decWrite → t.exc = s.exc ∧ t.resCount = s.resCount) ∧
    (i ≠ .decRead ∨ t.status ≠ 0x0 → t.result = s.result) ∧
    SameHostInputs s t ∧ SameRunFields s t) ∧
  (∀ (v : Word) (s : State), (∀ i, decode (.command v) ≠ .ok i) → ∃ t, hostWrite 0x000 v s = .next t ∧
    t.status = 0xF ∧ t.crc = s.crc ∧ SameEncoderOutputs s t ∧ SameDecoderOutputs s t ∧ SameHostInputs s t ∧
    SameRunFields s t) ∧
  (∀ (a : Index) (v : Word) (s : State), a ≠ 0x000 → ∃ t, hostWrite a v s = .next t ∧
    t.status = s.status ∧ t.crc = s.crc ∧ SameEncoderOutputs s t ∧ SameDecoderOutputs s t)

/-- 60_exceptions.md R106 and R105. First what `raise S(info)` writes, by family, for each of the seven failures with its
code. Then that a command which ends with a status other than `OK` has written exactly that: everything else keeps its
value, and `EXC` takes the exception code byte for `ModbusException` and 0x00 otherwise. -/
def Obligations.FailingCommandWritesExactlyItsFamilysRegisters : Prop :=
  (∀ (s : State) (b : Byte) (f : Failure) (code : Nibble) (info : Byte),
    (f, code, info) ∈ [(.invalidArgument, 0x1, 0x00), (.shortFrame, 0x2, 0x00), (.crcMismatch, 0x3, 0x00),
      (.functionMismatch, 0x4, 0x00), (.unexpectedEcho, 0x5, 0x00), (.modbusException b, 0x6, b),
      (.illegalCommand, 0xF, 0x00)] →
    raise .checker f s = { s with status := code } ∧
    raise .encoder f s = { s with status := code, txLen := 0 } ∧
    raise .decoder f s = { s with status := code, resCount := 0, exc := info } ∧
    raise .command f s = { s with status := code }) ∧
  ∀ s t : State,
    (exec .crcCheck s = .next t → t.status ≠ 0x0 →
      t.status ∈ [0x2, 0x3] ∧ t = { s with status := t.status }) ∧
    (exec .encRead s = .next t → t.status ≠ 0x0 → t = { s with status := 0x1, txLen := 0 }) ∧
    (exec .decRead s = .next t → t.status ≠ 0x0 → t.status ∈ [0x1, 0x2, 0x3, 0x4, 0x6] ∧
      t = { s with status := t.status, resCount := 0, exc := if t.status = 0x6 then s.rxbuf[2] else 0x00 }) ∧
    (exec .decWrite s = .next t → t.status ≠ 0x0 → t.status ∈ [0x2, 0x3, 0x5, 0x6] ∧
      t = { s with status := t.status, resCount := 0, exc := if t.status = 0x6 then s.rxbuf[2] else 0x00 }) ∧
    (∀ v : Word, (∀ i, decode (.command v) ≠ .ok i) → hostWrite 0x000 v s = .next t → t = { s with status := 0xF })

/-- 42_decoder.md R98, the table: what a decode command leaves behind, by outcome; nothing else is written. -/
def Obligations.DecodeLeavesBehindByOutcome : Prop :=
  (∀ s : State, ∃ t, exec .decRead s = .next t ∧ t.status ∈ [0x0, 0x1, 0x2, 0x3, 0x4, 0x6] ∧
    (t.status = 0x0 → t.exc = 0x00 ∧ t.resCount.toNat = s.count.toNat ∧
      ∀ i : Fin 125, t.result[i] =
        if i.val < s.count.toNat then joinBytes (s.rxbuf[3 + 2 * i.val]'(by omega)) (s.rxbuf[4 + 2 * i.val]'(by omega))
        else s.result[i]) ∧
    (t.status = 0x6 → t.exc = s.rxbuf[2] ∧ t.resCount = 0 ∧ t.result = s.result) ∧
    (t.status ≠ 0x0 → t.status ≠ 0x6 → t.exc = 0x00 ∧ t.resCount = 0 ∧ t.result = s.result) ∧
    SameHostInputs s t ∧ SameEncoderOutputs s t ∧ t.crc = s.crc ∧ SameRunFields s t) ∧
  (∀ s : State, ∃ t, exec .decWrite s = .next t ∧ t.status ∈ [0x0, 0x2, 0x3, 0x5, 0x6] ∧
    t.resCount = 0 ∧ t.result = s.result ∧
    (t.status = 0x6 → t.exc = s.rxbuf[2]) ∧ (t.status ≠ 0x6 → t.exc = 0x00) ∧
    SameHostInputs s t ∧ SameEncoderOutputs s t ∧ t.crc = s.crc ∧ SameRunFields s t)

/-- 42_decoder.md R95: a sequence of at least five bytes from the right unit, with the request's function code and bit 7 set,
and a right trailer, is an exception response, whatever its code and whatever else it holds. -/
def Obligations.ExceptionResponseIsReported : Prop :=
  ∀ s : State, 5 ≤ s.rxLen.toNat → s.rxbuf[0] = s.unit → crcOk (received s) = true →
    (s.rxbuf[1] = 0x83 → 1 ≤ s.count.toNat → s.count.toNat ≤ 125 →
      exec .decRead s = .next { s with status := 0x6, exc := s.rxbuf[2], resCount := 0 }) ∧
    (s.rxbuf[1] = 0x86 → exec .decWrite s = .next { s with status := 0x6, exc := s.rxbuf[2], resCount := 0 })

/-- 42_decoder.md R97: of two responses that differ at most in byte 2 and in the trailer, both with byte 1 equal to 0x03 and
a right trailer, `DEC_READ` makes the same: the byte count is compared with nothing, so a response that is long enough and
from the right unit decodes with `OK` whatever byte 2 is. -/
def Obligations.ByteCountIsNotCompared : Prop :=
  ∀ (s : State) (other : Vector Byte 256),
    (∀ i : Fin 256, i.val ≠ 2 → i.val + 2 ≠ s.rxLen.toNat → i.val + 1 ≠ s.rxLen.toNat → other[i] = s.rxbuf[i]) →
    s.rxbuf[1] = 0x03 → other[1] = 0x03 → crcOk (received s) = true →
    crcOk (received { s with rxbuf := other }) = true →
    ∃ t, exec .decRead s = .next t ∧ exec .decRead { s with rxbuf := other } = .next { t with rxbuf := other } ∧
      (s.rxbuf[0] = s.unit → 1 ≤ s.count.toNat → s.count.toNat ≤ 125 → 5 + 2 * s.count.toNat ≤ s.rxLen.toNat →
        t.status = 0x0)

/-! ### What the commands do not depend on -/

/-- 10_state.md section 8: "No command's result depends on `STATUS`, `EXC`, `TX_LEN` or `RES_COUNT`": with any other values
in those four registers a command leaves the same `STATUS`, `CRC`, `TXBUF` and `RESULT`, and the same value in each of the
four that it writes. -/
def Obligations.NoResultDependsOnStatusOrLengths : Prop :=
  ∀ (i : Instr) (s : State) (status txLen : Nibble) (exc resCount : Byte), IsCommand i →
    ∃ t u, exec i s = .next t ∧
      exec i { s with status := status, txLen := txLen, exc := exc, resCount := resCount } = .next u ∧
      u.status = t.status ∧ u.crc = t.crc ∧ u.txbuf = t.txbuf ∧ u.result = t.result ∧
      (i = .encRead ∨ i = .encWrite → u.txLen = t.txLen) ∧
      (i = .decRead ∨ i = .decWrite → u.exc = t.exc ∧ u.resCount = t.resCount)

/-- 10_state.md section 4: `CRC_CHECK`, the encoder and the decoder neither read nor write `CRC`. -/
def Obligations.CrcRegisterIsPrivateToItsFamily : Prop :=
  ∀ (i : Instr) (s : State) (c : Word), i ∈ [Instr.crcCheck, .encRead, .encWrite, .decRead, .decWrite] →
    ∃ t, exec i s = .next t ∧ t.crc = s.crc ∧ exec i { s with crc := c } = .next { t with crc := c }

/-- 20_memory.md section 2 (its R40, marked derived): every command but `CRC_BYTE`, run again, leaves the state as it is. -/
def Obligations.CommandsButCrcByteAreIdempotent : Prop :=
  ∀ (i : Instr) (s : State), IsCommand i → i ≠ .crcByte → ∃ t, exec i s = .next t ∧ exec i t = .next t

/-- 42_decoder.md section 5 and 20_memory.md section 4 (R99 and R45): no command sees `RXBUF` at or beyond `RX_LEN`. Of two
states that differ only there, every command makes states that differ only there: nothing stale leaks into any output. -/
def Obligations.NothingBeyondRxLenIsRead : Prop :=
  ∀ (i : Instr) (s : State) (other : Vector Byte 256), IsCommand i → SameReceived s { s with rxbuf := other } →
    ∃ t, exec i s = .next t ∧ exec i { s with rxbuf := other } = .next { t with rxbuf := other }

/-! ### The encoder -/

/-- 41_encoder.md section on R87 (marked derived): a successful build leaves a frame with a right trailer and residue zero; an
illegal count leaves `TX_LEN` 0 and `TXBUF` as it was. -/
def Obligations.BuiltFrameHasARightTrailer : Prop :=
  (∀ s t : State, exec .encRead s = .next t ∨ exec .encWrite s = .next t → t.status = 0x0 →
    Transmittable t ∧ crcOk t.txbuf.toList = true ∧ crc16 t.txbuf.toList = 0x0000) ∧
  (∀ s : State, ∃ t, exec .encRead s = .next t ∧ (t.status = 0x0 ∨ t.status = 0x1) ∧
    (t.status = 0x1 → t.txLen = 0 ∧ t.txbuf = s.txbuf)) ∧
  (∀ s : State, ∃ t, exec .encWrite s = .next t ∧ t.status = 0x0)

/-- 41_encoder.md, its R90 (marked derived): equal operands give equal frames whatever else the state holds; different
operands give frames that differ in bytes 0 to 5; the frames of the two commands differ in byte 1. -/
def Obligations.EncoderIsAnInjectiveFunctionOfItsOperands : Prop :=
  ∀ s t : State,
    (1 ≤ s.count.toNat → s.count.toNat ≤ 125 → 1 ≤ t.count.toNat → t.count.toNat ≤ 125 →
      ∃ s' t', exec .encRead s = .next s' ∧ exec .encRead t = .next t' ∧
        ((s.unit = t.unit ∧ s.addr = t.addr ∧ s.count = t.count) ↔ s'.txbuf = t'.txbuf) ∧
        ((s.unit = t.unit ∧ s.addr = t.addr ∧ s.count = t.count) ↔
          s'.txbuf.toList.take 6 = t'.txbuf.toList.take 6)) ∧
    (∃ s' t', exec .encWrite s = .next s' ∧ exec .encWrite t = .next t' ∧
        ((s.unit = t.unit ∧ s.addr = t.addr ∧ s.value = t.value) ↔ s'.txbuf = t'.txbuf) ∧
        ((s.unit = t.unit ∧ s.addr = t.addr ∧ s.value = t.value) ↔
          s'.txbuf.toList.take 6 = t'.txbuf.toList.take 6)) ∧
    (1 ≤ s.count.toNat → s.count.toNat ≤ 125 →
      ∃ s' t', exec .encRead s = .next s' ∧ exec .encWrite t = .next t' ∧ s'.txbuf[1] ≠ t'.txbuf[1])

/-! ### The decoder -/

/-- 42_decoder.md section 5, the round trip (its R100, marked derived): any `count` values put into a read response with a
right trailer come out of `DEC_READ` exactly, in their order, and entries beyond stay. -/
def Obligations.ReadResponseRoundTrip : Prop :=
  ∀ (s : State) (values : List Word), 1 ≤ values.length → values.length ≤ 125 → s.count.toNat = values.length →
    received s =
      withTrailer (s.unit :: 0x03 :: BitVec.ofNat 8 (2 * values.length) :: wordsBytes values) →
    ∃ t, exec .decRead s = .next t ∧ t.status = 0x0 ∧ t.exc = 0x00 ∧ t.resCount.toNat = values.length ∧
      (∀ i : Fin 125, t.result[i] = (values[i.val]?).getD s.result[i]) ∧
      SameHostInputs s t ∧ SameEncoderOutputs s t ∧ t.crc = s.crc ∧ SameRunFields s t

/-- 42_decoder.md section 5, trailer corruption (its R101, marked derived): where a decode ends in `OK` or `ModbusException`,
changing the last two bytes in any way ends in `CrcMismatch`. -/
def Obligations.AnyTrailerChangeIsACrcMismatch : Prop :=
  ∀ (i : Instr) (s t : State) (other : Vector Byte 256), i = .decRead ∨ i = .decWrite →
    exec i s = .next t → t.status = 0x0 ∨ t.status = 0x6 →
    (∀ k : Fin 256, k.val + 2 ≠ s.rxLen.toNat → k.val + 1 ≠ s.rxLen.toNat → other[k] = s.rxbuf[k]) →
    received { s with rxbuf := other } ≠ received s →
    exec i { s with rxbuf := other } =
      .next { s with rxbuf := other, status := 0x3, resCount := 0, exc := 0x00 }

/-- 42_decoder.md section 4, longer sequences (R96, the zero bytes marked derived): zero bytes after a frame that decodes
change nothing but `RX_LEN`. -/
def Obligations.TrailingZeroBytesAreAccepted : Prop :=
  ∀ (i : Instr) (s t : State) (n : Byte), i = .decRead ∨ i = .decWrite →
    exec i s = .next t → t.status = 0x0 ∨ t.status = 0x6 → s.rxLen.toNat ≤ n.toNat →
    (∀ k : Fin 256, s.rxLen.toNat ≤ k.val → k.val < n.toNat → s.rxbuf[k] = 0x00) →
    exec i { s with rxLen := n } = .next { t with rxLen := n }

/-- 30_encoding.md section 4 and 41_encoder.md: the block's own write request, received back, is an acknowledgement, whatever
the operands: the layouts of R59 and R61 agree. -/
def Obligations.EchoOfTheOwnRequestIsAcknowledged : Prop :=
  ∀ s t u : State, exec .encWrite s = .next t → SameRequest u t → received u = t.txbuf.toList →
    exec .decWrite u = .next { u with resCount := 0, exc := 0x00, status := 0x0 }

/-- 40_crc.md section 3 (its R83, marked derived): feeding a sequence byte by byte after `CRC_INIT`, and loading it and running
`CRC_BUF`, leave the same `CRC`. -/
def Obligations.StreamingAndBufferCrcAgree : Prop :=
  ∀ (bytes : List Byte) (s : State),
    (∃ t, runLines (.wr 0x000 0x0001 :: crcStreamLines bytes) s = .next t ∧
      t = { s with crc := crc16 bytes, data := (bytes.getLast?).getD s.data, status := 0x0 }) ∧
    (bytes.length ≤ 255 → ∃ t, runLines (ldrxLines bytes ++ [.wr 0x000 0x0003]) s = .next t ∧
      t.crc = crc16 bytes ∧ t.status = 0x0 ∧ Loaded t bytes)

/-! ### Encodings -/

/-- 30_encoding.md: every row whose fields fit its layout is read back from its own encoding, with every operand at every
value the encoding admits. The pairing of a frame with its direction is the model's (log 6). -/
def Obligations.DecodeInvertsEncode : Prop :=
  ∀ i : Instr, i.fits = true → decode (encode i) = .ok i

/-- 30_encoding.md: a code that is read as a row is that row's encoding, so no command word, and no byte sequence in one
direction, has two readings. The direction is part of the code by the model's choice (log 6): the same bytes read in the two
directions can name two rows, as those of a write request and its response do. -/
def Obligations.EncodeInvertsDecode : Prop :=
  ∀ (c : Code) (i : Instr), decode c = .ok i → encode i = c ∧ i.fits = true

/-- Words and frames written out from the encodings of 30_encoding.md R53 and R58 to R62, one of each family. -/
def Obligations.WrittenOutCodesDecode : Prop :=
  decode (.command 0b0000000000000010) = .ok .crcByte ∧
  decode (.command 0b0000000000000101) = .ok .encRead ∧
  decode (.command 0b0000000000000111) = .ok .decRead ∧
  decode (.request [0x01, 0x03, 0x00, 0x10, 0x00, 0x02, 0xC5, 0xCE]) = .ok (.reqRead 0x01 0x0010 0x0002 0xCEC5) ∧
  decode (.response [0x01, 0x03, 0x04, 0x00, 0x2A, 0x00, 0x2B, 0x9B, 0xE4]) =
    .ok (.rspRead 0x01 0x04 [0x002A, 0x002B] 0xE49B) ∧
  decode (.response [0x01, 0x83, 0x02, 0xC0, 0xF1]) = .ok (.rspReadExc 0x01 0x02 0xF1C0)

/-- 30_encoding.md sections 4 and 9: a frame's pattern has byte 0 leftmost, and bit 7 of each byte leftmost. The 64-bit
patterns of the two requests and the 40-bit patterns of the two exception responses are read field by field so, the trailer
low byte before high byte. That a 64-bit pattern is taken as a request and a 40-bit one as a response is the model's choice
(log 6). -/
def Obligations.FramePatternsAreReadByteZeroLeftmost : Prop :=
  ∀ (unit code lo hi : Byte) (addr operand : Word),
    decodeTableWord 64 (unit ++ (0x03 : Byte) ++ addr ++ operand ++ lo ++ hi).toNat =
      some (.reqRead unit addr operand (joinBytes hi lo)) ∧
    decodeTableWord 64 (unit ++ (0x06 : Byte) ++ addr ++ operand ++ lo ++ hi).toNat =
      some (.reqWrite unit addr operand (joinBytes hi lo)) ∧
    decodeTableWord 40 (unit ++ (0x83 : Byte) ++ code ++ lo ++ hi).toNat =
      some (.rspReadExc unit code (joinBytes hi lo)) ∧
    decodeTableWord 40 (unit ++ (0x86 : Byte) ++ code ++ lo ++ hi).toNat =
      some (.rspWriteExc unit code (joinBytes hi lo))

/-! ### The six frame rows (the model's meaning, log 4) -/

/-- `REQ_READ`: with a legal count the operand registers take the frame's fields and `TXBUF` holds the frame with its right
trailer, which is the frame itself where it is well formed; an illegal count ends as `ENC_READ` does. All else is unchanged.
The meaning is the model's choice (log 4, log 5). -/
def Obligations.ReqReadBuildsItsFrame : Prop :=
  ∀ (unit : Byte) (addr count crc : Word) (s : State),
    (1 ≤ count.toNat → count.toNat ≤ 125 → ∃ frame : Vector Byte 8,
      exec (.reqRead unit addr count crc) s = .next { s with
        unit := unit, addr := addr, count := count, txbuf := frame, txLen := 8, status := 0x0 } ∧
      frame.toList = withTrailer (frameBody (.reqRead unit addr count crc)) ∧
      ((Instr.reqRead unit addr count crc).wf = true → frame.toList = frameBytes (.reqRead unit addr count crc))) ∧
    (count.toNat < 1 ∨ 125 < count.toNat → exec (.reqRead unit addr count crc) s = .next { s with
      unit := unit, addr := addr, count := count, txLen := 0, status := 0x1 })

/-- `REQ_WRITE`: the operand registers take the frame's fields and `TXBUF` holds the frame with its right trailer. The
meaning is the model's choice (log 4, log 5). -/
def Obligations.ReqWriteBuildsItsFrame : Prop :=
  ∀ (unit : Byte) (addr value crc : Word) (s : State), ∃ frame : Vector Byte 8,
    exec (.reqWrite unit addr value crc) s = .next { s with
      unit := unit, addr := addr, value := value, txbuf := frame, txLen := 8, status := 0x0 } ∧
    frame.toList = withTrailer (frameBody (.reqWrite unit addr value crc)) ∧
    ((Instr.reqWrite unit addr value crc).wf = true → frame.toList = frameBytes (.reqWrite unit addr value crc))

/-- `RSP_READ`: a well-formed response of the addressed unit with as many values as were asked for delivers them. The
meaning is the model's choice (log 4). -/
def Obligations.RspReadDeliversItsValues : Prop :=
  ∀ (unit byteCount : Byte) (regs : List Word) (crc : Word) (s : State),
    (Instr.rspRead unit byteCount regs crc).wf = true → s.unit = unit → s.count.toNat = regs.length →
    ∃ t, exec (.rspRead unit byteCount regs crc) s = .next t ∧
      t = { s with rxbuf := t.rxbuf, rxLen := BitVec.ofNat 8 (5 + 2 * regs.length), result := t.result,
                   resCount := BitVec.ofNat 8 regs.length, exc := 0x00, status := 0x0 } ∧
      Loaded t (frameBytes (.rspRead unit byteCount regs crc)) ∧
      (∀ k : Fin 256, 5 + 2 * regs.length ≤ k.val → t.rxbuf[k] = s.rxbuf[k]) ∧
      (∀ i : Fin 125, t.result[i] = (regs[i.val]?).getD s.result[i])

/-- `RSP_WRITE`: a well-formed response with the request's unit, address and value is an acknowledgement; one with another
unit, address or value is an unexpected echo. The meaning is the model's choice (log 4). -/
def Obligations.RspWriteIsAcknowledged : Prop :=
  ∀ (unit : Byte) (addr value crc : Word) (s : State), (Instr.rspWrite unit addr value crc).wf = true →
    ∃ t, exec (.rspWrite unit addr value crc) s = .next t ∧
      t = { s with rxbuf := t.rxbuf, rxLen := 8, resCount := 0, exc := 0x00,
                   status := if s.unit = unit ∧ s.addr = addr ∧ s.value = value then 0x0 else 0x5 } ∧
      Loaded t (frameBytes (.rspWrite unit addr value crc)) ∧
      (∀ k : Fin 256, 8 ≤ k.val → t.rxbuf[k] = s.rxbuf[k])

/-- `RSP_READ_EXC` and `RSP_WRITE_EXC`: a well-formed exception response of the addressed unit is reported with its code.
The meaning is the model's choice (log 4). -/
def Obligations.ExceptionFramesReportTheirCode : Prop :=
  ∀ (unit code : Byte) (crc : Word) (s : State), s.unit = unit →
    ((Instr.rspReadExc unit code crc).wf = true → 1 ≤ s.count.toNat → s.count.toNat ≤ 125 →
      ∃ t, exec (.rspReadExc unit code crc) s = .next t ∧
        t = { s with rxbuf := t.rxbuf, rxLen := 5, resCount := 0, exc := code, status := 0x6 } ∧
        Loaded t (frameBytes (.rspReadExc unit code crc)) ∧
        (∀ k : Fin 256, 5 ≤ k.val → t.rxbuf[k] = s.rxbuf[k])) ∧
    ((Instr.rspWriteExc unit code crc).wf = true →
      ∃ t, exec (.rspWriteExc unit code crc) s = .next t ∧
        t = { s with rxbuf := t.rxbuf, rxLen := 5, resCount := 0, exc := code, status := 0x6 } ∧
        Loaded t (frameBytes (.rspWriteExc unit code crc)) ∧
        (∀ k : Fin 256, 5 ≤ k.val → t.rxbuf[k] = s.rxbuf[k]))

/-- Every row that fits its layout does exactly what the plain host accesses it stands for do, one after another: the
operand writes and the encode command, or `LDRX` and the decode command (30_encoding.md section 8,
70_reset_and_hazards.md section 2). That a frame stands for them is the model's choice (log 4). -/
def Obligations.EveryRowIsItsHostScript : Prop :=
  ∀ (i : Instr) (s : State), i.fits = true → runLines (linesOf i) s = exec i s

/-- What a response frame, well formed or not, leaves unchanged: it loads its bytes, and beyond `RXBUF` and `RX_LEN` writes
only the decoder's registers and `STATUS`. The meaning is the model's choice (log 4). -/
def Obligations.ResponseFrameLoadsItsBytes : Prop :=
  ∀ (i : Instr) (s : State), i.fits = true → (∃ bytes, encode i = .response bytes) →
    ∃ t, exec i s = .next t ∧ Loaded t (frameBytes i) ∧
      (∀ k : Fin 256, (frameBytes i).length ≤ k.val → t.rxbuf[k] = s.rxbuf[k]) ∧
      SameRequest s t ∧ t.data = s.data ∧ t.crc = s.crc ∧ SameEncoderOutputs s t ∧ SameRunFields s t

/-! ### The step -/

/-- When the next line presents a code that decodes to `i`, the step is the execution of `i` with that line taken off the
script. There is no program counter to move (10_state.md R30); the script is the model's input (log 1). -/
def Obligations.StepRunsTheDecodedInstruction : Prop :=
  ∀ (s : State) (c : Code) (i : Instr) (rest : List HostEvent),
    decode c = .ok i → s.script = eventOf c :: rest → step s = exec i { s with script := rest }

/-- The instruction placed by `withFetchWord` is the one the very next step runs, from any state (log 1, log 6). -/
def Obligations.FetchWordIsRunNext : Prop :=
  ∀ (s : State) (nbits w : Nat) (i : Instr),
    decodeTableWord nbits w = some i → step (s.withFetchWord nbits w) = exec i s

/-- A step answers a next state, or refuses a pseudo-line whose bytes are no frame (log 7); nothing else happens. The block
"cannot hang and cannot be stuck" (70_reset_and_hazards.md section 4). -/
def Obligations.StepStopsOnlyOnBytesThatAreNoFrame : Prop :=
  ∀ s : State, (∃ t, step s = .next t) ∨
    ∃ (c : Code) (rest : List HostEvent) (why : String),
      s.script = eventOf c :: rest ∧ (∀ i, decode c ≠ .ok i) ∧ (∀ w, c ≠ .command w) ∧
      step s = .refused (.notAFrame why)

/-- A step takes exactly the line it serves off the script, and with no line left changes nothing (20_memory.md section 5,
60_exceptions.md section 2; the script is the model's, log 1). -/
def Obligations.StepTakesOneLine : Prop :=
  (∀ s : State, s.script = [] → step s = .next s) ∧
  (∀ (s t : State) (e : HostEvent) (rest : List HostEvent),
    s.script = e :: rest → step s = .next t → t.script = rest)

/-- Running the machine for as many steps as the script has lines is serving the lines in their order (20_memory.md
section 5; log 1). -/
def Obligations.RunOfTheMachineIsItsScript : Prop :=
  ∀ (lines : List HostEvent) (s : State),
    Sys2Proof.core.run lines.length { s with script := lines } = runLines lines { s with script := [] }

/-- A script of plain host accesses and resets runs to its end from every state, whatever it writes and reads
(70_reset_and_hazards.md section 4), and yields one value for each read (log 1). -/
def Obligations.PlainScriptsRunToTheirEnd : Prop :=
  ∀ (lines : List HostEvent) (s : State),
    (∀ e ∈ lines, (∃ a, e = .rd a) ∨ (∃ a v, e = .wr a v) ∨ e = .reset) →
    ∃ t, runLines lines s = .next t ∧
      t.reads.length = s.reads.length + (lines.filter fun e => match e with | .rd _ => true | _ => false).length

/-! ### Reset and the invariant -/

/-- 70_reset_and_hazards.md R119: the scalar registers after reset, for every contents of the buffers (each reset number `k`
has its own free contents, log 2). -/
def Obligations.ResetLeavesTheStatedValues : Prop :=
  State.reset = State.resetAt 0 ∧
  ∀ k : Nat, let r := State.resetAt k
    r.status = 0x0 ∧ r.exc = 0x00 ∧ r.unit = 0x00 ∧ r.addr = 0x0000 ∧ r.count = 0x0000 ∧ r.value = 0x0000 ∧
    r.data = 0x00 ∧ r.crc = 0xFFFF ∧ r.txLen = 0 ∧ r.rxLen = 0 ∧ r.resCount = 0

/-- 10_state.md section 9 (R32): after a reset event the block's registers do not depend on what they were; the script left and
the values read stay with the host (the model's choice, log 3). -/
def Obligations.ResetEventForgetsTheState : Prop :=
  ∀ s : State, ∃ t, serve .reset s = .next t ∧
    t = { State.resetAt (s.resets + 1) with script := s.script, reads := s.reads }

/-- 70_reset_and_hazards.md section 1 (its R120, marked derived): every command straight after reset, for every contents of
the buffers. -/
def Obligations.CommandsStraightAfterReset : Prop :=
  ∀ k : Nat, let r := State.resetAt k
    exec .crcInit r = .next r ∧
    exec .crcByte r = .next { r with crc := 0x40BF } ∧
    exec .crcBuf r = .next r ∧
    exec .crcCheck r = .next { r with status := 0x2 } ∧
    exec .encRead r = .next { r with status := 0x1 } ∧
    exec .encWrite r = .next { r with txbuf := #v[0x00, 0x06, 0x00, 0x00, 0x00, 0x00, 0x88, 0x1B], txLen := 8 } ∧
    exec .decRead r = .next { r with status := 0x1 } ∧
    exec .decWrite r = .next { r with status := 0x2 }

/-- The invariant holds after reset, for every contents of the buffers (30_encoding.md section 3, 10_state.md section 5). -/
def Obligations.ResetIsLegal : Prop :=
  ∀ k : Nat, RegistersLegal (State.resetAt k)

/-- Every step keeps the registers legal, from every state, reachable or not: `STATUS` is never a reserved code, `TX_LEN` is
0 or 8, `RES_COUNT` at most 125, a `TXBUF` marked valid is a request frame with a right trailer, and an exception code never
stands beside results (30_encoding.md sections 3 and 7, 10_state.md section 5, 41_encoder.md, 42_decoder.md section 4). -/
def Obligations.EveryStepKeepsTheRegistersLegal : Prop :=
  ∀ s t : State, RegistersLegal s → step s = .next t → RegistersLegal t
end

