-- ==== Sys2Proof/Laws/Crc.lean ====
section
/-! SUPPORT. What the byte helpers and the CRC functions do, once each (spec 30_encoding.md R63, 40_crc.md R73 to R76). -/

namespace Sys2Proof

/-! ### Bytes and words -/

@[simp] theorem hiByte_joinBytes (hi lo : Byte) : hiByte (joinBytes hi lo) = hi := by
  unfold hiByte joinBytes
  ext k hk
  simp only [BitVec.getElem_extractLsb']
  rw [BitVec.getLsbD_append]
  simp [BitVec.getLsbD_eq_getElem hk]

@[simp] theorem loByte_joinBytes (hi lo : Byte) : loByte (joinBytes hi lo) = lo := by
  unfold loByte joinBytes
  ext k hk
  simp only [BitVec.getElem_extractLsb']
  rw [BitVec.getLsbD_append]
  simp [hk]

@[simp] theorem joinBytes_hi_lo (v : Word) : joinBytes (hiByte v) (loByte v) = v := by
  unfold joinBytes hiByte loByte
  ext k hk
  simp only [BitVec.getElem_append, BitVec.getElem_extractLsb']
  split
  · simp [BitVec.getLsbD_eq_getElem hk]
  · have h : 8 + (k - 8) = k := by omega
    simp [h, BitVec.getLsbD_eq_getElem hk]

/-- A byte written through a 16-bit host access comes out as it was (20_memory.md R38). -/
@[simp] theorem loByte_zeroExtend (b : Byte) : loByte (b.zeroExtend 16) = b := by
  apply BitVec.eq_of_toNat_eq
  have := b.isLt
  simp [loByte]
  omega

theorem joinBytes_inj {a b c d : Byte} : joinBytes a b = joinBytes c d ↔ a = c ∧ b = d := by
  constructor
  · intro h
    exact ⟨by simpa using congrArg hiByte h, by simpa using congrArg loByte h⟩
  · rintro ⟨rfl, rfl⟩
    rfl

theorem joinBytes_toNat (hi lo : Byte) : (joinBytes hi lo).toNat = hi.toNat * 256 + lo.toNat := by
  unfold joinBytes
  rw [BitVec.toNat_append, ← Nat.shiftLeft_add_eq_or_of_lt lo.isLt, Nat.shiftLeft_eq]

/-- A byte of a pattern is eight of its bits: what `bytesOfNat` cuts out (30_encoding.md R71). -/
theorem ofNat_toNat_div_pow {m : Nat} (x : BitVec m) (k : Nat) :
    BitVec.ofNat 8 (x.toNat / 256 ^ k) = x.extractLsb' (8 * k) 8 := by
  apply BitVec.eq_of_toNat_eq
  rw [show 256 ^ k = 2 ^ (8 * k) by rw [pow_mul]; rfl]
  simp [Nat.shiftRight_eq_div_pow]

@[simp] theorem length_bytesOfNat (n w : Nat) : (bytesOfNat n w).length = n := by
  induction n with
  | zero => rfl
  | succ n ih => simp [bytesOfNat, ih]

@[simp] theorem length_wordsBytes (ws : List Word) : (wordsBytes ws).length = 2 * ws.length := by
  induction ws with
  | nil => rfl
  | cons w ws ih => simp [wordsBytes, beBytes, ih]; omega

/-- Word `k` of a list stands at bytes `2k` and `2k + 1`, its high byte first. -/
theorem getElem?_wordsBytes (ws : List Word) : ∀ k (hk : k < ws.length),
    (wordsBytes ws)[2 * k]? = some (hiByte ws[k]) ∧ (wordsBytes ws)[2 * k + 1]? = some (loByte ws[k]) := by
  induction ws with
  | nil => intro k hk; simp at hk
  | cons w ws ih =>
    intro k hk
    cases k with
    | zero => simp [wordsBytes, beBytes]
    | succ k =>
      have h := ih k (by simpa using hk)
      rw [show 2 * (k + 1) = 2 * k + 1 + 1 by omega]
      simpa [wordsBytes, beBytes] using h

theorem getElem?_overlay {α : Type} (new old : List α) (k : Nat) (hk : k < old.length) :
    (overlay new old)[k]? = if k < new.length then new[k]? else old[k]? := by
  induction new generalizing old k with
  | nil => simp [overlay]
  | cons b bs ih =>
    cases old with
    | nil => simp at hk
    | cons o old =>
      cases k with
      | zero => simp [overlay]
      | succ k => simpa [overlay] using ih old k (by simpa using hk)

/-- Value `k` of a byte sequence is made of its bytes `2k` and `2k + 1`. -/
theorem getElem?_wordsOf (s : List Byte) : ∀ k (hk : 2 * k + 1 < s.length),
    (wordsOf s)[k]? = some (joinBytes s[2 * k] s[2 * k + 1]) := by
  induction s using wordsOf.induct with
  | case1 => intro k hk; simp at hk
  | case2 => intro k hk; simp at hk
  | case3 hi lo rest ih =>
    intro k hk
    cases k with
    | zero => simp [wordsOf]
    | succ k =>
      have h := ih k (by simp at hk; omega)
      simpa [wordsOf, Nat.mul_add] using h

/-! ### The generator -/

@[simp] theorem crcFrom_nil (c : Word) : crcFrom c [] = c := rfl

@[simp] theorem crcFrom_cons (c : Word) (b : Byte) (bs : List Byte) :
    crcFrom c (b :: bs) = crcFrom (crcByte c b) bs := rfl

theorem crcFrom_append (c : Word) (a b : List Byte) : crcFrom c (a ++ b) = crcFrom (crcFrom c a) b := by
  simp [crcFrom, List.foldl_append]

theorem crc16_append (a b : List Byte) : crc16 (a ++ b) = crcFrom (crc16 a) b := crcFrom_append _ _ _

/-- A bit step commutes with exclusive-or: the generator is linear. -/
theorem crcBit_xor (x y : Word) : crcBit (x ^^^ y) = crcBit x ^^^ crcBit y := by
  have hs : (x ^^^ y) >>> 1 = x >>> 1 ^^^ y >>> 1 := by
    ext k hk
    simp
  have hc : Config.poly ^^^ y >>> 1 = y >>> 1 ^^^ Config.poly := BitVec.xor_comm _ _
  have hz : Config.poly ^^^ (y >>> 1 ^^^ Config.poly) = y >>> 1 := by
    rw [← BitVec.xor_assoc, hc, BitVec.xor_assoc, BitVec.xor_self, BitVec.xor_zero]
  simp only [crcBit, BitVec.getLsbD_xor, hs]
  cases x.getLsbD 0 <;> cases y.getLsbD 0 <;> simp [BitVec.xor_assoc, hc, hz]

/-- Eight bit steps, the loop of `crc_byte`. -/
def crcSteps (c : Word) : Word := crcBit (crcBit (crcBit (crcBit (crcBit (crcBit (crcBit (crcBit c)))))))

theorem crcByte_eq (c : Word) (b : Byte) : crcByte c b = crcSteps (c ^^^ b.zeroExtend 16) := rfl

theorem crcSteps_xor (x y : Word) : crcSteps (x ^^^ y) = crcSteps x ^^^ crcSteps y := by
  simp [crcSteps, crcBit_xor]

/-- A bit step loses nothing: only zero goes to zero, for `POLY` has bit 15 set and a shifted register has not. -/
theorem crcBit_eq_zero_iff (c : Word) : crcBit c = 0 ↔ c = 0 := by
  constructor
  · intro h
    unfold crcBit at h
    split at h
    · have h15 := congrArg (fun v : Word => v.getLsbD 15) h
      simp [Config.poly] at h15
    · rename_i h0
      apply BitVec.eq_of_getLsbD_eq
      intro k hk
      cases k with
      | zero => simpa using h0
      | succ k =>
        have hb := congrArg (fun v : Word => v.getLsbD k) h
        simpa [Nat.add_comm] using hb
  · rintro rfl
    decide

theorem crcSteps_eq_zero_iff (c : Word) : crcSteps c = 0 ↔ c = 0 := by
  simp only [crcSteps, crcBit_eq_zero_iff]

/-- With the low byte zero, eight steps move the high byte down unchanged. -/
theorem crcSteps_high : ∀ h : Byte, crcSteps (joinBytes h 0) = h.zeroExtend 16 := by decide +kernel

theorem word_eq_high_xor_low (c : Word) : c = joinBytes (hiByte c) 0 ^^^ (loByte c).zeroExtend 16 := by
  conv => lhs; rw [← joinBytes_hi_lo c]
  unfold joinBytes
  ext k hk
  simp only [BitVec.getElem_xor, BitVec.getElem_append, BitVec.truncate_eq_setWidth, BitVec.getElem_setWidth]
  split
  · rename_i h
    simp [BitVec.getLsbD_eq_getElem h]
  · rename_i h
    simp [BitVec.getLsbD_of_ge (loByte c) k (by omega)]

/-- Feeding the low byte of the register moves its high byte down: the reason for the residue law (40_crc.md R77). -/
theorem crcByte_loByte (c : Word) : crcByte c (loByte c) = (hiByte c).zeroExtend 16 := by
  have h : c ^^^ (loByte c).zeroExtend 16 = joinBytes (hiByte c) 0 := by
    conv => lhs; lhs; rw [word_eq_high_xor_low c]
    rw [BitVec.xor_assoc]
    simp
  rw [crcByte_eq, h, crcSteps_high]

/-- Feeding a one-byte register its own byte brings it to zero. -/
theorem crcByte_self (h : Byte) : crcByte (h.zeroExtend 16) h = 0 := by
  rw [crcByte_eq, BitVec.xor_self]
  decide

theorem crcByte_zero_zero : crcByte 0 0 = 0 := by decide

theorem crcFrom_zero_replicate (k : Nat) : crcFrom 0 (List.replicate k 0) = 0 := by
  induction k with
  | zero => rfl
  | succ k ih => rw [List.replicate_succ, crcFrom_cons, crcByte_zero_zero, ih]

/-- The verifier on a sequence with its trailer written out (R76). -/
theorem crcOk_append (m : List Byte) (lo hi : Byte) : crcOk (m ++ [lo, hi]) = (crc16 m == joinBytes hi lo) := by
  simp [crcOk]

/-- A sequence of two bytes or more is a body and a trailer. -/
theorem exists_trailer (s : List Byte) (h : 2 ≤ s.length) : ∃ m lo hi, s = m ++ [lo, hi] := by
  refine ⟨s.take (s.length - 2), s[s.length - 2], s[s.length - 1], ?_⟩
  apply List.ext_getElem
  · simp; omega
  · intro k h1 h2
    simp only [List.getElem_append, List.length_take]
    split
    · simp
    · have : k = s.length - 2 ∨ k = s.length - 1 := by omega
      rcases this with rfl | rfl
      · simp
      · have h3 : s.length - 1 - (s.length - 2) = 1 := by omega
        simp [h3]

end Sys2Proof
end

