-- ==== Sys2Proof/Laws/State.lean ====
section
/-! SUPPORT. One lemma per field per update of State (Machine/Ops.lean), so that no proof unfolds a record update. -/

namespace Sys2Proof.Machine.State

variable (s : State)

section
variable (v : Nibble)
@[simp] theorem setStatus_status : (s.setStatus v).status = v := rfl
@[simp] theorem setStatus_exc : (s.setStatus v).exc = s.exc := rfl
@[simp] theorem setStatus_unit : (s.setStatus v).unit = s.unit := rfl
@[simp] theorem setStatus_addr : (s.setStatus v).addr = s.addr := rfl
@[simp] theorem setStatus_count : (s.setStatus v).count = s.count := rfl
@[simp] theorem setStatus_value : (s.setStatus v).value = s.value := rfl
@[simp] theorem setStatus_data : (s.setStatus v).data = s.data := rfl
@[simp] theorem setStatus_crc : (s.setStatus v).crc = s.crc := rfl
@[simp] theorem setStatus_txLen : (s.setStatus v).txLen = s.txLen := rfl
@[simp] theorem setStatus_rxLen : (s.setStatus v).rxLen = s.rxLen := rfl
@[simp] theorem setStatus_resCount : (s.setStatus v).resCount = s.resCount := rfl
@[simp] theorem setStatus_txbuf : (s.setStatus v).txbuf = s.txbuf := rfl
@[simp] theorem setStatus_rxbuf : (s.setStatus v).rxbuf = s.rxbuf := rfl
@[simp] theorem setStatus_result : (s.setStatus v).result = s.result := rfl
@[simp] theorem setStatus_script : (s.setStatus v).script = s.script := rfl
@[simp] theorem setStatus_reads : (s.setStatus v).reads = s.reads := rfl
@[simp] theorem setStatus_resets : (s.setStatus v).resets = s.resets := rfl
end

section
variable (v : Byte)
@[simp] theorem setExc_status : (s.setExc v).status = s.status := rfl
@[simp] theorem setExc_exc : (s.setExc v).exc = v := rfl
@[simp] theorem setExc_unit : (s.setExc v).unit = s.unit := rfl
@[simp] theorem setExc_addr : (s.setExc v).addr = s.addr := rfl
@[simp] theorem setExc_count : (s.setExc v).count = s.count := rfl
@[simp] theorem setExc_value : (s.setExc v).value = s.value := rfl
@[simp] theorem setExc_data : (s.setExc v).data = s.data := rfl
@[simp] theorem setExc_crc : (s.setExc v).crc = s.crc := rfl
@[simp] theorem setExc_txLen : (s.setExc v).txLen = s.txLen := rfl
@[simp] theorem setExc_rxLen : (s.setExc v).rxLen = s.rxLen := rfl
@[simp] theorem setExc_resCount : (s.setExc v).resCount = s.resCount := rfl
@[simp] theorem setExc_txbuf : (s.setExc v).txbuf = s.txbuf := rfl
@[simp] theorem setExc_rxbuf : (s.setExc v).rxbuf = s.rxbuf := rfl
@[simp] theorem setExc_result : (s.setExc v).result = s.result := rfl
@[simp] theorem setExc_script : (s.setExc v).script = s.script := rfl
@[simp] theorem setExc_reads : (s.setExc v).reads = s.reads := rfl
@[simp] theorem setExc_resets : (s.setExc v).resets = s.resets := rfl
end

section
variable (v : Byte)
@[simp] theorem setUnit_status : (s.setUnit v).status = s.status := rfl
@[simp] theorem setUnit_exc : (s.setUnit v).exc = s.exc := rfl
@[simp] theorem setUnit_unit : (s.setUnit v).unit = v := rfl
@[simp] theorem setUnit_addr : (s.setUnit v).addr = s.addr := rfl
@[simp] theorem setUnit_count : (s.setUnit v).count = s.count := rfl
@[simp] theorem setUnit_value : (s.setUnit v).value = s.value := rfl
@[simp] theorem setUnit_data : (s.setUnit v).data = s.data := rfl
@[simp] theorem setUnit_crc : (s.setUnit v).crc = s.crc := rfl
@[simp] theorem setUnit_txLen : (s.setUnit v).txLen = s.txLen := rfl
@[simp] theorem setUnit_rxLen : (s.setUnit v).rxLen = s.rxLen := rfl
@[simp] theorem setUnit_resCount : (s.setUnit v).resCount = s.resCount := rfl
@[simp] theorem setUnit_txbuf : (s.setUnit v).txbuf = s.txbuf := rfl
@[simp] theorem setUnit_rxbuf : (s.setUnit v).rxbuf = s.rxbuf := rfl
@[simp] theorem setUnit_result : (s.setUnit v).result = s.result := rfl
@[simp] theorem setUnit_script : (s.setUnit v).script = s.script := rfl
@[simp] theorem setUnit_reads : (s.setUnit v).reads = s.reads := rfl
@[simp] theorem setUnit_resets : (s.setUnit v).resets = s.resets := rfl
end

section
variable (v : Word)
@[simp] theorem setAddr_status : (s.setAddr v).status = s.status := rfl
@[simp] theorem setAddr_exc : (s.setAddr v).exc = s.exc := rfl
@[simp] theorem setAddr_unit : (s.setAddr v).unit = s.unit := rfl
@[simp] theorem setAddr_addr : (s.setAddr v).addr = v := rfl
@[simp] theorem setAddr_count : (s.setAddr v).count = s.count := rfl
@[simp] theorem setAddr_value : (s.setAddr v).value = s.value := rfl
@[simp] theorem setAddr_data : (s.setAddr v).data = s.data := rfl
@[simp] theorem setAddr_crc : (s.setAddr v).crc = s.crc := rfl
@[simp] theorem setAddr_txLen : (s.setAddr v).txLen = s.txLen := rfl
@[simp] theorem setAddr_rxLen : (s.setAddr v).rxLen = s.rxLen := rfl
@[simp] theorem setAddr_resCount : (s.setAddr v).resCount = s.resCount := rfl
@[simp] theorem setAddr_txbuf : (s.setAddr v).txbuf = s.txbuf := rfl
@[simp] theorem setAddr_rxbuf : (s.setAddr v).rxbuf = s.rxbuf := rfl
@[simp] theorem setAddr_result : (s.setAddr v).result = s.result := rfl
@[simp] theorem setAddr_script : (s.setAddr v).script = s.script := rfl
@[simp] theorem setAddr_reads : (s.setAddr v).reads = s.reads := rfl
@[simp] theorem setAddr_resets : (s.setAddr v).resets = s.resets := rfl
end

section
variable (v : Word)
@[simp] theorem setCount_status : (s.setCount v).status = s.status := rfl
@[simp] theorem setCount_exc : (s.setCount v).exc = s.exc := rfl
@[simp] theorem setCount_unit : (s.setCount v).unit = s.unit := rfl
@[simp] theorem setCount_addr : (s.setCount v).addr = s.addr := rfl
@[simp] theorem setCount_count : (s.setCount v).count = v := rfl
@[simp] theorem setCount_value : (s.setCount v).value = s.value := rfl
@[simp] theorem setCount_data : (s.setCount v).data = s.data := rfl
@[simp] theorem setCount_crc : (s.setCount v).crc = s.crc := rfl
@[simp] theorem setCount_txLen : (s.setCount v).txLen = s.txLen := rfl
@[simp] theorem setCount_rxLen : (s.setCount v).rxLen = s.rxLen := rfl
@[simp] theorem setCount_resCount : (s.setCount v).resCount = s.resCount := rfl
@[simp] theorem setCount_txbuf : (s.setCount v).txbuf = s.txbuf := rfl
@[simp] theorem setCount_rxbuf : (s.setCount v).rxbuf = s.rxbuf := rfl
@[simp] theorem setCount_result : (s.setCount v).result = s.result := rfl
@[simp] theorem setCount_script : (s.setCount v).script = s.script := rfl
@[simp] theorem setCount_reads : (s.setCount v).reads = s.reads := rfl
@[simp] theorem setCount_resets : (s.setCount v).resets = s.resets := rfl
end

section
variable (v : Word)
@[simp] theorem setValue_status : (s.setValue v).status = s.status := rfl
@[simp] theorem setValue_exc : (s.setValue v).exc = s.exc := rfl
@[simp] theorem setValue_unit : (s.setValue v).unit = s.unit := rfl
@[simp] theorem setValue_addr : (s.setValue v).addr = s.addr := rfl
@[simp] theorem setValue_count : (s.setValue v).count = s.count := rfl
@[simp] theorem setValue_value : (s.setValue v).value = v := rfl
@[simp] theorem setValue_data : (s.setValue v).data = s.data := rfl
@[simp] theorem setValue_crc : (s.setValue v).crc = s.crc := rfl
@[simp] theorem setValue_txLen : (s.setValue v).txLen = s.txLen := rfl
@[simp] theorem setValue_rxLen : (s.setValue v).rxLen = s.rxLen := rfl
@[simp] theorem setValue_resCount : (s.setValue v).resCount = s.resCount := rfl
@[simp] theorem setValue_txbuf : (s.setValue v).txbuf = s.txbuf := rfl
@[simp] theorem setValue_rxbuf : (s.setValue v).rxbuf = s.rxbuf := rfl
@[simp] theorem setValue_result : (s.setValue v).result = s.result := rfl
@[simp] theorem setValue_script : (s.setValue v).script = s.script := rfl
@[simp] theorem setValue_reads : (s.setValue v).reads = s.reads := rfl
@[simp] theorem setValue_resets : (s.setValue v).resets = s.resets := rfl
end

section
variable (v : Byte)
@[simp] theorem setData_status : (s.setData v).status = s.status := rfl
@[simp] theorem setData_exc : (s.setData v).exc = s.exc := rfl
@[simp] theorem setData_unit : (s.setData v).unit = s.unit := rfl
@[simp] theorem setData_addr : (s.setData v).addr = s.addr := rfl
@[simp] theorem setData_count : (s.setData v).count = s.count := rfl
@[simp] theorem setData_value : (s.setData v).value = s.value := rfl
@[simp] theorem setData_data : (s.setData v).data = v := rfl
@[simp] theorem setData_crc : (s.setData v).crc = s.crc := rfl
@[simp] theorem setData_txLen : (s.setData v).txLen = s.txLen := rfl
@[simp] theorem setData_rxLen : (s.setData v).rxLen = s.rxLen := rfl
@[simp] theorem setData_resCount : (s.setData v).resCount = s.resCount := rfl
@[simp] theorem setData_txbuf : (s.setData v).txbuf = s.txbuf := rfl
@[simp] theorem setData_rxbuf : (s.setData v).rxbuf = s.rxbuf := rfl
@[simp] theorem setData_result : (s.setData v).result = s.result := rfl
@[simp] theorem setData_script : (s.setData v).script = s.script := rfl
@[simp] theorem setData_reads : (s.setData v).reads = s.reads := rfl
@[simp] theorem setData_resets : (s.setData v).resets = s.resets := rfl
end

section
variable (v : Word)
@[simp] theorem setCrc_status : (s.setCrc v).status = s.status := rfl
@[simp] theorem setCrc_exc : (s.setCrc v).exc = s.exc := rfl
@[simp] theorem setCrc_unit : (s.setCrc v).unit = s.unit := rfl
@[simp] theorem setCrc_addr : (s.setCrc v).addr = s.addr := rfl
@[simp] theorem setCrc_count : (s.setCrc v).count = s.count := rfl
@[simp] theorem setCrc_value : (s.setCrc v).value = s.value := rfl
@[simp] theorem setCrc_data : (s.setCrc v).data = s.data := rfl
@[simp] theorem setCrc_crc : (s.setCrc v).crc = v := rfl
@[simp] theorem setCrc_txLen : (s.setCrc v).txLen = s.txLen := rfl
@[simp] theorem setCrc_rxLen : (s.setCrc v).rxLen = s.rxLen := rfl
@[simp] theorem setCrc_resCount : (s.setCrc v).resCount = s.resCount := rfl
@[simp] theorem setCrc_txbuf : (s.setCrc v).txbuf = s.txbuf := rfl
@[simp] theorem setCrc_rxbuf : (s.setCrc v).rxbuf = s.rxbuf := rfl
@[simp] theorem setCrc_result : (s.setCrc v).result = s.result := rfl
@[simp] theorem setCrc_script : (s.setCrc v).script = s.script := rfl
@[simp] theorem setCrc_reads : (s.setCrc v).reads = s.reads := rfl
@[simp] theorem setCrc_resets : (s.setCrc v).resets = s.resets := rfl
end

section
variable (v : Nibble)
@[simp] theorem setTxLen_status : (s.setTxLen v).status = s.status := rfl
@[simp] theorem setTxLen_exc : (s.setTxLen v).exc = s.exc := rfl
@[simp] theorem setTxLen_unit : (s.setTxLen v).unit = s.unit := rfl
@[simp] theorem setTxLen_addr : (s.setTxLen v).addr = s.addr := rfl
@[simp] theorem setTxLen_count : (s.setTxLen v).count = s.count := rfl
@[simp] theorem setTxLen_value : (s.setTxLen v).value = s.value := rfl
@[simp] theorem setTxLen_data : (s.setTxLen v).data = s.data := rfl
@[simp] theorem setTxLen_crc : (s.setTxLen v).crc = s.crc := rfl
@[simp] theorem setTxLen_txLen : (s.setTxLen v).txLen = v := rfl
@[simp] theorem setTxLen_rxLen : (s.setTxLen v).rxLen = s.rxLen := rfl
@[simp] theorem setTxLen_resCount : (s.setTxLen v).resCount = s.resCount := rfl
@[simp] theorem setTxLen_txbuf : (s.setTxLen v).txbuf = s.txbuf := rfl
@[simp] theorem setTxLen_rxbuf : (s.setTxLen v).rxbuf = s.rxbuf := rfl
@[simp] theorem setTxLen_result : (s.setTxLen v).result = s.result := rfl
@[simp] theorem setTxLen_script : (s.setTxLen v).script = s.script := rfl
@[simp] theorem setTxLen_reads : (s.setTxLen v).reads = s.reads := rfl
@[simp] theorem setTxLen_resets : (s.setTxLen v).resets = s.resets := rfl
end

section
variable (v : Byte)
@[simp] theorem setRxLen_status : (s.setRxLen v).status = s.status := rfl
@[simp] theorem setRxLen_exc : (s.setRxLen v).exc = s.exc := rfl
@[simp] theorem setRxLen_unit : (s.setRxLen v).unit = s.unit := rfl
@[simp] theorem setRxLen_addr : (s.setRxLen v).addr = s.addr := rfl
@[simp] theorem setRxLen_count : (s.setRxLen v).count = s.count := rfl
@[simp] theorem setRxLen_value : (s.setRxLen v).value = s.value := rfl
@[simp] theorem setRxLen_data : (s.setRxLen v).data = s.data := rfl
@[simp] theorem setRxLen_crc : (s.setRxLen v).crc = s.crc := rfl
@[simp] theorem setRxLen_txLen : (s.setRxLen v).txLen = s.txLen := rfl
@[simp] theorem setRxLen_rxLen : (s.setRxLen v).rxLen = v := rfl
@[simp] theorem setRxLen_resCount : (s.setRxLen v).resCount = s.resCount := rfl
@[simp] theorem setRxLen_txbuf : (s.setRxLen v).txbuf = s.txbuf := rfl
@[simp] theorem setRxLen_rxbuf : (s.setRxLen v).rxbuf = s.rxbuf := rfl
@[simp] theorem setRxLen_result : (s.setRxLen v).result = s.result := rfl
@[simp] theorem setRxLen_script : (s.setRxLen v).script = s.script := rfl
@[simp] theorem setRxLen_reads : (s.setRxLen v).reads = s.reads := rfl
@[simp] theorem setRxLen_resets : (s.setRxLen v).resets = s.resets := rfl
end

section
variable (v : Byte)
@[simp] theorem setResCount_status : (s.setResCount v).status = s.status := rfl
@[simp] theorem setResCount_exc : (s.setResCount v).exc = s.exc := rfl
@[simp] theorem setResCount_unit : (s.setResCount v).unit = s.unit := rfl
@[simp] theorem setResCount_addr : (s.setResCount v).addr = s.addr := rfl
@[simp] theorem setResCount_count : (s.setResCount v).count = s.count := rfl
@[simp] theorem setResCount_value : (s.setResCount v).value = s.value := rfl
@[simp] theorem setResCount_data : (s.setResCount v).data = s.data := rfl
@[simp] theorem setResCount_crc : (s.setResCount v).crc = s.crc := rfl
@[simp] theorem setResCount_txLen : (s.setResCount v).txLen = s.txLen := rfl
@[simp] theorem setResCount_rxLen : (s.setResCount v).rxLen = s.rxLen := rfl
@[simp] theorem setResCount_resCount : (s.setResCount v).resCount = v := rfl
@[simp] theorem setResCount_txbuf : (s.setResCount v).txbuf = s.txbuf := rfl
@[simp] theorem setResCount_rxbuf : (s.setResCount v).rxbuf = s.rxbuf := rfl
@[simp] theorem setResCount_result : (s.setResCount v).result = s.result := rfl
@[simp] theorem setResCount_script : (s.setResCount v).script = s.script := rfl
@[simp] theorem setResCount_reads : (s.setResCount v).reads = s.reads := rfl
@[simp] theorem setResCount_resets : (s.setResCount v).resets = s.resets := rfl
end

section
variable (v : Vector Byte 8)
@[simp] theorem setTxbuf_status : (s.setTxbuf v).status = s.status := rfl
@[simp] theorem setTxbuf_exc : (s.setTxbuf v).exc = s.exc := rfl
@[simp] theorem setTxbuf_unit : (s.setTxbuf v).unit = s.unit := rfl
@[simp] theorem setTxbuf_addr : (s.setTxbuf v).addr = s.addr := rfl
@[simp] theorem setTxbuf_count : (s.setTxbuf v).count = s.count := rfl
@[simp] theorem setTxbuf_value : (s.setTxbuf v).value = s.value := rfl
@[simp] theorem setTxbuf_data : (s.setTxbuf v).data = s.data := rfl
@[simp] theorem setTxbuf_crc : (s.setTxbuf v).crc = s.crc := rfl
@[simp] theorem setTxbuf_txLen : (s.setTxbuf v).txLen = s.txLen := rfl
@[simp] theorem setTxbuf_rxLen : (s.setTxbuf v).rxLen = s.rxLen := rfl
@[simp] theorem setTxbuf_resCount : (s.setTxbuf v).resCount = s.resCount := rfl
@[simp] theorem setTxbuf_txbuf : (s.setTxbuf v).txbuf = v := rfl
@[simp] theorem setTxbuf_rxbuf : (s.setTxbuf v).rxbuf = s.rxbuf := rfl
@[simp] theorem setTxbuf_result : (s.setTxbuf v).result = s.result := rfl
@[simp] theorem setTxbuf_script : (s.setTxbuf v).script = s.script := rfl
@[simp] theorem setTxbuf_reads : (s.setTxbuf v).reads = s.reads := rfl
@[simp] theorem setTxbuf_resets : (s.setTxbuf v).resets = s.resets := rfl
end

section
variable (v : Vector Byte 256)
@[simp] theorem setRxbuf_status : (s.setRxbuf v).status = s.status := rfl
@[simp] theorem setRxbuf_exc : (s.setRxbuf v).exc = s.exc := rfl
@[simp] theorem setRxbuf_unit : (s.setRxbuf v).unit = s.unit := rfl
@[simp] theorem setRxbuf_addr : (s.setRxbuf v).addr = s.addr := rfl
@[simp] theorem setRxbuf_count : (s.setRxbuf v).count = s.count := rfl
@[simp] theorem setRxbuf_value : (s.setRxbuf v).value = s.value := rfl
@[simp] theorem setRxbuf_data : (s.setRxbuf v).data = s.data := rfl
@[simp] theorem setRxbuf_crc : (s.setRxbuf v).crc = s.crc := rfl
@[simp] theorem setRxbuf_txLen : (s.setRxbuf v).txLen = s.txLen := rfl
@[simp] theorem setRxbuf_rxLen : (s.setRxbuf v).rxLen = s.rxLen := rfl
@[simp] theorem setRxbuf_resCount : (s.setRxbuf v).resCount = s.resCount := rfl
@[simp] theorem setRxbuf_txbuf : (s.setRxbuf v).txbuf = s.txbuf := rfl
@[simp] theorem setRxbuf_rxbuf : (s.setRxbuf v).rxbuf = v := rfl
@[simp] theorem setRxbuf_result : (s.setRxbuf v).result = s.result := rfl
@[simp] theorem setRxbuf_script : (s.setRxbuf v).script = s.script := rfl
@[simp] theorem setRxbuf_reads : (s.setRxbuf v).reads = s.reads := rfl
@[simp] theorem setRxbuf_resets : (s.setRxbuf v).resets = s.resets := rfl
end

section
variable (v : Vector Word 125)
@[simp] theorem setResult_status : (s.setResult v).status = s.status := rfl
@[simp] theorem setResult_exc : (s.setResult v).exc = s.exc := rfl
@[simp] theorem setResult_unit : (s.setResult v).unit = s.unit := rfl
@[simp] theorem setResult_addr : (s.setResult v).addr = s.addr := rfl
@[simp] theorem setResult_count : (s.setResult v).count = s.count := rfl
@[simp] theorem setResult_value : (s.setResult v).value = s.value := rfl
@[simp] theorem setResult_data : (s.setResult v).data = s.data := rfl
@[simp] theorem setResult_crc : (s.setResult v).crc = s.crc := rfl
@[simp] theorem setResult_txLen : (s.setResult v).txLen = s.txLen := rfl
@[simp] theorem setResult_rxLen : (s.setResult v).rxLen = s.rxLen := rfl
@[simp] theorem setResult_resCount : (s.setResult v).resCount = s.resCount := rfl
@[simp] theorem setResult_txbuf : (s.setResult v).txbuf = s.txbuf := rfl
@[simp] theorem setResult_rxbuf : (s.setResult v).rxbuf = s.rxbuf := rfl
@[simp] theorem setResult_result : (s.setResult v).result = v := rfl
@[simp] theorem setResult_script : (s.setResult v).script = s.script := rfl
@[simp] theorem setResult_reads : (s.setResult v).reads = s.reads := rfl
@[simp] theorem setResult_resets : (s.setResult v).resets = s.resets := rfl
end

section
variable (v : List HostEvent)
@[simp] theorem setScript_status : (s.setScript v).status = s.status := rfl
@[simp] theorem setScript_exc : (s.setScript v).exc = s.exc := rfl
@[simp] theorem setScript_unit : (s.setScript v).unit = s.unit := rfl
@[simp] theorem setScript_addr : (s.setScript v).addr = s.addr := rfl
@[simp] theorem setScript_count : (s.setScript v).count = s.count := rfl
@[simp] theorem setScript_value : (s.setScript v).value = s.value := rfl
@[simp] theorem setScript_data : (s.setScript v).data = s.data := rfl
@[simp] theorem setScript_crc : (s.setScript v).crc = s.crc := rfl
@[simp] theorem setScript_txLen : (s.setScript v).txLen = s.txLen := rfl
@[simp] theorem setScript_rxLen : (s.setScript v).rxLen = s.rxLen := rfl
@[simp] theorem setScript_resCount : (s.setScript v).resCount = s.resCount := rfl
@[simp] theorem setScript_txbuf : (s.setScript v).txbuf = s.txbuf := rfl
@[simp] theorem setScript_rxbuf : (s.setScript v).rxbuf = s.rxbuf := rfl
@[simp] theorem setScript_result : (s.setScript v).result = s.result := rfl
@[simp] theorem setScript_script : (s.setScript v).script = v := rfl
@[simp] theorem setScript_reads : (s.setScript v).reads = s.reads := rfl
@[simp] theorem setScript_resets : (s.setScript v).resets = s.resets := rfl
end

section
variable (v : List Word)
@[simp] theorem setReads_status : (s.setReads v).status = s.status := rfl
@[simp] theorem setReads_exc : (s.setReads v).exc = s.exc := rfl
@[simp] theorem setReads_unit : (s.setReads v).unit = s.unit := rfl
@[simp] theorem setReads_addr : (s.setReads v).addr = s.addr := rfl
@[simp] theorem setReads_count : (s.setReads v).count = s.count := rfl
@[simp] theorem setReads_value : (s.setReads v).value = s.value := rfl
@[simp] theorem setReads_data : (s.setReads v).data = s.data := rfl
@[simp] theorem setReads_crc : (s.setReads v).crc = s.crc := rfl
@[simp] theorem setReads_txLen : (s.setReads v).txLen = s.txLen := rfl
@[simp] theorem setReads_rxLen : (s.setReads v).rxLen = s.rxLen := rfl
@[simp] theorem setReads_resCount : (s.setReads v).resCount = s.resCount := rfl
@[simp] theorem setReads_txbuf : (s.setReads v).txbuf = s.txbuf := rfl
@[simp] theorem setReads_rxbuf : (s.setReads v).rxbuf = s.rxbuf := rfl
@[simp] theorem setReads_result : (s.setReads v).result = s.result := rfl
@[simp] theorem setReads_script : (s.setReads v).script = s.script := rfl
@[simp] theorem setReads_reads : (s.setReads v).reads = v := rfl
@[simp] theorem setReads_resets : (s.setReads v).resets = s.resets := rfl
end

@[simp] theorem resetAt_status (k : Nat) : (resetAt k).status = 0 := rfl
@[simp] theorem resetAt_exc (k : Nat) : (resetAt k).exc = 0 := rfl
@[simp] theorem resetAt_unit (k : Nat) : (resetAt k).unit = 0 := rfl
@[simp] theorem resetAt_addr (k : Nat) : (resetAt k).addr = 0 := rfl
@[simp] theorem resetAt_count (k : Nat) : (resetAt k).count = 0 := rfl
@[simp] theorem resetAt_value (k : Nat) : (resetAt k).value = 0 := rfl
@[simp] theorem resetAt_data (k : Nat) : (resetAt k).data = 0 := rfl
@[simp] theorem resetAt_crc (k : Nat) : (resetAt k).crc = 0xFFFF := rfl
@[simp] theorem resetAt_txLen (k : Nat) : (resetAt k).txLen = 0 := rfl
@[simp] theorem resetAt_rxLen (k : Nat) : (resetAt k).rxLen = 0 := rfl
@[simp] theorem resetAt_resCount (k : Nat) : (resetAt k).resCount = 0 := rfl
@[simp] theorem resetAt_txbuf (k : Nat) : (resetAt k).txbuf = bufferOf 8 (Config.txbufAtReset k) := rfl
@[simp] theorem resetAt_rxbuf (k : Nat) : (resetAt k).rxbuf = bufferOf 256 (Config.rxbufAtReset k) := rfl
@[simp] theorem resetAt_result (k : Nat) : (resetAt k).result = bufferOf 125 (Config.resultAtReset k) := rfl
@[simp] theorem resetAt_script (k : Nat) : (resetAt k).script = [] := rfl
@[simp] theorem resetAt_reads (k : Nat) : (resetAt k).reads = [] := rfl
@[simp] theorem resetAt_resets (k : Nat) : (resetAt k).resets = k := rfl

end Sys2Proof.Machine.State
end

