-- ==== Sys2Proof/Laws/Ops.lean ====
section
/-! SUPPORT. What each shared operation does, once: failing, the register space, the received sequence, `LDRX` (spec
60_exceptions.md R106, 20_memory.md R34 to R38, 10_state.md R25, 30_encoding.md R69). -/

namespace Sys2Proof.Machine

/-! ### Ending a command -/

theorem succeed_eq (s : State) : succeed s = { s with status := 0x0 } := rfl

theorem raise_checker (f : Failure) (s : State) : raise .checker f s = { s with status := failureCode f } := rfl

theorem raise_encoder (f : Failure) (s : State) :
    raise .encoder f s = { s with status := failureCode f, txLen := 0 } := rfl

theorem raise_decoder (f : Failure) (s : State) :
    raise .decoder f s = { s with status := failureCode f, resCount := 0, exc := failureInfo f } := rfl

theorem illegalCommand_eq (s : State) : illegalCommand s = { s with status := 0xF } := rfl

theorem failureCode_mem (f : Failure) : failureCode f ∈ producedCodes := by
  cases f <;> simp [failureCode, producedCodes]

theorem failureCode_ne_ok (f : Failure) : failureCode f ≠ 0x0 := by
  cases f <;> simp [failureCode]

theorem okCode_mem : okCode ∈ producedCodes := by simp [okCode, producedCodes]

/-! ### The register space -/

@[simp] theorem regAt_txbuf (i : Fin 8) : regAt (BitVec.ofNat 10 (0x010 + i.val)) = .txbuf i := by
  revert i; decide

@[simp] theorem regAt_rxbuf (i : Fin 256) : regAt (BitVec.ofNat 10 (0x100 + i.val)) = .rxbuf i := by
  revert i; decide +kernel

@[simp] theorem regAt_result (i : Fin 125) : regAt (BitVec.ofNat 10 (0x200 + i.val)) = .result i := by
  revert i; decide +kernel

/-- `CMD` stands at index 0x000 and nowhere else (R34). -/
theorem regAt_eq_cmd_iff (a : Index) : regAt a = .cmd ↔ a = 0x000 := by
  revert a; decide +kernel

/-- The reserved indices of the map (R34, R35). -/
theorem regAt_reserved (a : Index)
    (h : (0x00C ≤ a.toNat ∧ a.toNat ≤ 0x00F) ∨ (0x018 ≤ a.toNat ∧ a.toNat ≤ 0x0FF) ∨ 0x27D ≤ a.toNat) :
    regAt a = .reserved := by
  revert a
  decide +kernel

/-- The index of a register: the map of R34 read the other way. -/
def indexOf : Reg → Index
  | .cmd => 0x000
  | .status => 0x001
  | .exc => 0x002
  | .unit => 0x003
  | .addr => 0x004
  | .count => 0x005
  | .value => 0x006
  | .data => 0x007
  | .crc => 0x008
  | .txLen => 0x009
  | .rxLen => 0x00A
  | .resCount => 0x00B
  | .txbuf i => BitVec.ofNat 10 (0x010 + i.val)
  | .rxbuf i => BitVec.ofNat 10 (0x100 + i.val)
  | .result i => BitVec.ofNat 10 (0x200 + i.val)
  | .reserved => 0x00C

theorem indexOf_regAt : ∀ a : Index, regAt a ≠ .reserved → indexOf (regAt a) = a := by
  decide +kernel

/-- Two indices of the map name different registers (R34). -/
theorem regAt_inj {a b : Index} (h : regAt a = regAt b) : a = b ∨ regAt a = .reserved := by
  by_cases hr : regAt a = .reserved
  · exact .inr hr
  · refine .inl ?_
    rw [← indexOf_regAt a hr, h, indexOf_regAt b (h ▸ hr)]

/-- A write to one register leaves every other reading as before (R38, R40). -/
theorem readReg_writeReg_of_ne {r r' : Reg} (v : Word) (s : State) (h : r = r' → r = .reserved) :
    readReg r' (writeReg r v s) = readReg r' s := by
  cases r <;> cases r' <;> simp_all [readReg, writeReg]
  rw [Vector.getElem_set_ne]
  intro hh
  exact h (Fin.ext hh)

/-- A register read by the host has its value in the low bits and zeros above (R37). -/
theorem zeroExtend_toNat {n : Nat} (hn : n ≤ 16) (v : BitVec n) : (v.zeroExtend 16).toNat = v.toNat := by
  change (v.setWidth 16).toNat = _
  rw [BitVec.toNat_setWidth]
  have h1 := v.isLt
  have h2 := Nat.pow_le_pow_right (show 0 < 2 by omega) hn
  omega

/-! ### The received sequence -/

@[simp] theorem length_received (s : State) : (received s).length = s.rxLen.toNat := by
  have := s.rxLen.isLt
  simp [received]
  omega

theorem getElem?_received (s : State) (k : Nat) (hk : k < s.rxLen.toNat) :
    (received s)[k]? = some (s.rxbuf[k]'(by have := s.rxLen.isLt; omega)) := by
  have := s.rxLen.isLt
  simp only [received, List.getElem?_take, hk, if_true]
  rw [List.getElem?_eq_getElem (by simp; omega)]
  simp

theorem received_eq_iff (s : State) (bytes : List Byte) : received s = bytes ↔
    bytes.length = s.rxLen.toNat ∧
      ∀ k (h : k < s.rxLen.toNat), bytes[k]? = some (s.rxbuf[k]'(by have := s.rxLen.isLt; omega)) := by
  constructor
  · rintro rfl
    exact ⟨length_received s, fun k h => getElem?_received s k h⟩
  · rintro ⟨hl, he⟩
    apply List.ext_getElem?
    intro k
    by_cases hk : k < s.rxLen.toNat
    · rw [getElem?_received s k hk, he k hk]
    · rw [List.getElem?_eq_none (by simp; omega), List.getElem?_eq_none (by omega)]

/-- Two states that agree below `RX_LEN` hold the same received sequence (10_state.md R25). -/
theorem received_congr {s t : State} (hl : s.rxLen = t.rxLen)
    (h : ∀ i : Fin 256, i.val < s.rxLen.toNat → s.rxbuf[i] = t.rxbuf[i]) : received s = received t := by
  rw [received_eq_iff]
  refine ⟨by simp [hl], fun k hk => ?_⟩
  have hlt := s.rxLen.isLt
  rw [getElem?_received t k (hl ▸ hk)]
  exact congrArg some (h ⟨k, by omega⟩ hk).symm

/-- A byte of the received sequence stands in `RXBUF` at its own index (20_memory.md R44). -/
theorem rxbuf_of_received {s : State} {bytes : List Byte} {b : Byte} (h : received s = bytes) (k : Nat) (hk : k < 256)
    (hb : bytes[k]? = some b) : s.rxbuf[k] = b := by
  obtain ⟨hl, he⟩ := (received_eq_iff s bytes).1 h
  have hlt : k < bytes.length := by
    by_contra hh
    rw [List.getElem?_eq_none (by omega)] at hb
    cases hb
  have h2 := he k (by omega)
  rw [hb] at h2
  exact (Option.some.inj h2).symm

/-! ### `LDRX` -/

/-- A buffer with its first entries replaced, entry by entry. -/
theorem overlayBuffer_getElem {α : Type} {n : Nat} (new : List α) (old : Vector α n) (k : Nat) (hk : k < n) :
    (overlayBuffer new old)[k] = if h : k < new.length then new[k] else old[k] := by
  have h1 : (overlay new old.toList)[k]? = some (overlayBuffer new old)[k] := by
    rw [List.getElem?_eq_getElem (by simp [length_overlay, hk])]
    rfl
  rw [getElem?_overlay _ _ _ (by simpa using hk)] at h1
  split
  · rename_i h
    simpa [h] using h1.symm
  · rename_i h
    have h2 : old.toList[k]? = some old[k] := by
      rw [List.getElem?_eq_getElem (by simpa using hk)]
      simp
    simpa [h, h2] using h1.symm

@[simp] theorem loadReceived_rxLen (bytes : List Byte) (s : State) :
    (loadReceived bytes s).rxLen = BitVec.ofNat 8 bytes.length := rfl

@[simp] theorem loadReceived_rxbuf (bytes : List Byte) (s : State) (k : Nat) (hk : k < 256) :
    (loadReceived bytes s).rxbuf[k] = (bytes[k]?).getD s.rxbuf[k] := by
  have h := overlayBuffer_getElem bytes s.rxbuf k hk
  by_cases hb : k < bytes.length
  · simpa [loadReceived, hb] using h
  · simpa [loadReceived, hb] using h

/-- Entries at and beyond the loaded length keep their contents (R69). -/
theorem loadReceived_rxbuf_of_le (bytes : List Byte) (s : State) (k : Fin 256) (h : bytes.length ≤ k.val) :
    (loadReceived bytes s).rxbuf[k] = s.rxbuf[k] := by
  have h2 := loadReceived_rxbuf bytes s k.val k.isLt
  rw [List.getElem?_eq_none h] at h2
  exact h2

/-! `LDRX` writes `RXBUF` and `RX_LEN` and nothing else (R69). -/

section
variable (bytes : List Byte) (s : State)
@[simp] theorem loadReceived_status : (loadReceived bytes s).status = s.status := rfl
@[simp] theorem loadReceived_exc : (loadReceived bytes s).exc = s.exc := rfl
@[simp] theorem loadReceived_unit : (loadReceived bytes s).unit = s.unit := rfl
@[simp] theorem loadReceived_addr : (loadReceived bytes s).addr = s.addr := rfl
@[simp] theorem loadReceived_count : (loadReceived bytes s).count = s.count := rfl
@[simp] theorem loadReceived_value : (loadReceived bytes s).value = s.value := rfl
@[simp] theorem loadReceived_data : (loadReceived bytes s).data = s.data := rfl
@[simp] theorem loadReceived_crc : (loadReceived bytes s).crc = s.crc := rfl
@[simp] theorem loadReceived_txLen : (loadReceived bytes s).txLen = s.txLen := rfl
@[simp] theorem loadReceived_resCount : (loadReceived bytes s).resCount = s.resCount := rfl
@[simp] theorem loadReceived_txbuf : (loadReceived bytes s).txbuf = s.txbuf := rfl
@[simp] theorem loadReceived_result : (loadReceived bytes s).result = s.result := rfl
@[simp] theorem loadReceived_script : (loadReceived bytes s).script = s.script := rfl
@[simp] theorem loadReceived_reads : (loadReceived bytes s).reads = s.reads := rfl
@[simp] theorem loadReceived_resets : (loadReceived bytes s).resets = s.resets := rfl
end

theorem received_loadReceived (bytes : List Byte) (s : State) (h : bytes.length ≤ 255) :
    received (loadReceived bytes s) = bytes := by
  have hl : (loadReceived bytes s).rxLen.toNat = bytes.length := by simp; omega
  rw [received_eq_iff]
  refine ⟨hl.symm, fun k hk => ?_⟩
  rw [hl] at hk
  simp [List.getElem?_eq_getElem hk]

/-! ### The operands of the decoders -/

theorem decodedResult_getElem (s : State) (k : Nat) (hk : k < 125) :
    (decodedResult s)[k] =
      if k < s.count.toNat then joinBytes s.rxbuf[3 + 2 * k] s.rxbuf[4 + 2 * k] else s.result[k] := by
  have hv : (receivedValues s)[k]? = some (joinBytes s.rxbuf[3 + 2 * k] s.rxbuf[4 + 2 * k]) := by
    rw [receivedValues, getElem?_wordsOf _ _ (by simp; omega)]
    simp [show 3 + (2 * k + 1) = 4 + 2 * k by omega]
  have hl : k < (receivedValues s).length := by
    by_contra h
    rw [List.getElem?_eq_none (by omega)] at hv
    cases hv
  rw [List.getElem?_eq_getElem hl] at hv
  rw [decodedResult, overlayBuffer_getElem _ _ _ hk]
  by_cases h : k < s.count.toNat
  · simpa [h, hl] using hv
  · simp [h]

theorem countLegal_iff (s : State) : countLegal s = true ↔ 1 ≤ s.count.toNat ∧ s.count.toNat ≤ 125 := by
  exact decide_eq_true_iff

/-- Only two values of byte 1 match a function code: the code and the code with the exception marker (30_encoding.md R64). -/
theorem sameFunction_read (s : State) :
    sameFunction Config.fcRead s = true ↔ s.rxbuf[1] = 0x03 ∨ s.rxbuf[1] = 0x83 := by
  unfold sameFunction
  generalize s.rxbuf[1] = b
  revert b
  decide +kernel

theorem sameFunction_write (s : State) :
    sameFunction Config.fcWrite s = true ↔ s.rxbuf[1] = 0x06 ∨ s.rxbuf[1] = 0x86 := by
  unfold sameFunction
  generalize s.rxbuf[1] = b
  revert b
  decide +kernel

/-- Bit 7 of byte 1 (R64). -/
theorem isException_eq_false_iff (s : State) : isException s = false ↔ s.rxbuf[1].toNat < 0x80 := by
  unfold isException
  generalize s.rxbuf[1] = b
  revert b
  decide +kernel

theorem echoMatches_iff (s : State) : echoMatches s = true ↔
    s.rxbuf[2] = hiByte s.addr ∧ s.rxbuf[3] = loByte s.addr ∧ s.rxbuf[4] = hiByte s.value ∧ s.rxbuf[5] = loByte s.value := by
  simp [echoMatches, and_assoc]

/-- The frame the encoder builds is its six bytes with their right trailer (41_encoder.md R85, R86). -/
theorem requestFrame_toList (unit function : Byte) (addr operand : Word) :
    (requestFrame unit function addr operand).toList = withTrailer (requestBody unit function addr operand) := rfl

end Sys2Proof.Machine
end

