-- ==== Sys2Proof/Laws/Commands.lean ====
section
/-! SUPPORT. What each command can do, said once (spec 40_crc.md R81, 41_encoder.md R85, 42_decoder.md R92 to R94). -/

namespace Sys2Proof.Machine

/-! ### `CRC_CHECK` -/

/-- The three outcomes of `CRC_CHECK` (R81). -/
theorem execCrcCheck_cases (s : State) :
    (s.rxLen.toNat < 2 ∧ execCrcCheck s = .next { s with status := 0x2 }) ∨
    (2 ≤ s.rxLen.toNat ∧ crcOk (received s) = false ∧ execCrcCheck s = .next { s with status := 0x3 }) ∨
    (2 ≤ s.rxLen.toNat ∧ crcOk (received s) = true ∧ execCrcCheck s = .next { s with status := 0x0 }) := by
  unfold execCrcCheck checkTrailer
  by_cases h : s.rxLen.toNat < 2
  · exact .inl ⟨h, by simp [h, raise_checker, failureCode]⟩
  · cases hc : crcOk (received s)
    · exact .inr (.inl ⟨by omega, rfl, by simp [h, raise_checker, failureCode]⟩)
    · exact .inr (.inr ⟨by omega, rfl, by simp [h, succeed_eq]⟩)

/-! ### The encoder -/

theorem putRequest_eq (frame : Vector Byte 8) (s : State) :
    putRequest frame s = { s with txbuf := frame, txLen := 8, status := 0x0 } := rfl

theorem encodeRead_legal (s : State) (h : countLegal s = true) :
    encodeRead s =
      { s with txbuf := requestFrame s.unit Config.fcRead s.addr s.count, txLen := 8, status := 0x0 } := by
  simp [encodeRead, h, putRequest_eq]

theorem encodeRead_illegal (s : State) (h : countLegal s = false) :
    encodeRead s = { s with status := 0x1, txLen := 0 } := by
  simp [encodeRead, h, raise_encoder, failureCode]

theorem encodeWrite_eq (s : State) :
    encodeWrite s =
      { s with txbuf := requestFrame s.unit Config.fcWrite s.addr s.value, txLen := 8, status := 0x0 } := rfl

/-! ### The decoders' front end -/

/-- When the front end lets a response through (R92): long enough, the header right, the trailer right, no exception. -/
theorem decodeFront_eq_none_iff (function : Byte) (normalLength : Nat) (mismatch : Failure) (s : State) :
    decodeFront function normalLength mismatch s = none ↔
      5 ≤ s.rxLen.toNat ∧ normalLength ≤ s.rxLen.toNat ∧ isException s = false ∧ s.rxbuf[0] = s.unit ∧
        sameFunction function s = true ∧ crcOk (received s) = true := by
  unfold decodeFront Config.absMinFrame
  by_cases h5 : s.rxLen.toNat < 5
  · simp [h5, Nat.not_le.mpr h5]
  have h5' : 5 ≤ s.rxLen.toNat := by omega
  by_cases hL : s.rxLen.toNat < normalLength
  · cases isException s <;> cases sameFunction function s <;> cases crcOk (received s) <;>
      by_cases hu : s.rxbuf[0] = s.unit <;> simp [hu, h5, hL, Nat.not_le.mpr hL]
  · have hL' : normalLength ≤ s.rxLen.toNat := by omega
    cases isException s <;> cases sameFunction function s <;> cases crcOk (received s) <;>
      by_cases hu : s.rxbuf[0] = s.unit <;> simp [hu, h5, h5', hL, hL']

/-- What a failing front end reports, and that the failure is that of the first check that fails (R92). -/
theorem decodeFront_eq_some {function : Byte} {normalLength : Nat} {mismatch failure : Failure} {s : State}
    (h : decodeFront function normalLength mismatch s = some failure) :
    (failure = .shortFrame ∧
      (s.rxLen.toNat < 5 ∨ (isException s = false ∧ s.rxLen.toNat < normalLength))) ∨
    (5 ≤ s.rxLen.toNat ∧ (isException s = true ∨ normalLength ≤ s.rxLen.toNat) ∧
      ((failure = mismatch ∧ (s.rxbuf[0] ≠ s.unit ∨ sameFunction function s = false)) ∨
       (s.rxbuf[0] = s.unit ∧ sameFunction function s = true ∧
        ((failure = .crcMismatch ∧ crcOk (received s) = false) ∨
         (failure = .modbusException s.rxbuf[2] ∧ crcOk (received s) = true ∧ isException s = true))))) := by
  unfold decodeFront Config.absMinFrame at h
  by_cases h1 : s.rxLen.toNat < 5
  · simp only [h1, if_true, Option.some.injEq] at h
    exact .inl ⟨h.symm, .inl h1⟩
  simp only [h1, if_false] at h
  cases he : isException s
  · by_cases h2 : s.rxLen.toNat < normalLength
    · simp only [he, h2, Bool.false_eq_true, if_false, if_true, Option.some.injEq] at h
      exact .inl ⟨h.symm, .inr ⟨rfl, h2⟩⟩
    · refine .inr ⟨by omega, .inr (by omega), ?_⟩
      cases hf : sameFunction function s <;> cases hc : crcOk (received s) <;>
        by_cases hu : s.rxbuf[0] = s.unit <;> simp_all
  · refine .inr ⟨by omega, .inl rfl, ?_⟩
    simp only [he, if_true, h1, if_false] at h
    cases hf : sameFunction function s <;> cases hc : crcOk (received s) <;>
      by_cases hu : s.rxbuf[0] = s.unit <;> simp_all

/-- The front end as its tests on the bytes themselves, in order (R92). -/
theorem decodeFront_eq_tests (function : Byte) (normalLength : Nat) (mismatch : Failure) (s : State) :
    decodeFront function normalLength mismatch s =
      if s.rxLen.toNat < 5 then some .shortFrame
      else if s.rxbuf[1].toNat < 0x80 ∧ s.rxLen.toNat < normalLength then some .shortFrame
      else if s.rxbuf[0] ≠ s.unit ∨ sameFunction function s = false then some mismatch
      else if crcOk (received s) = false then some .crcMismatch
      else if 0x80 ≤ s.rxbuf[1].toNat then some (.modbusException s.rxbuf[2])
      else none := by
  unfold decodeFront Config.absMinFrame
  have h := isException_eq_false_iff s
  by_cases h1 : s.rxLen.toNat < 5
  · simp [h1]
  cases he : isException s
  · have h2 := h.1 he
    simp [h1, h2, Nat.not_le.mpr h2]
  · have h2 : ¬ s.rxbuf[1].toNat < 0x80 := fun hh => by rw [h.2 hh] at he; cases he
    simp [h1, h2, Nat.not_lt.mp h2]

/-- What the front end's failure records: the code byte for `ModbusException`, 0x00 for the others (R92, R98). -/
theorem failureInfo_of_decodeFront {function : Byte} {normalLength : Nat} {mismatch failure : Failure} {s : State}
    (h : decodeFront function normalLength mismatch s = some failure)
    (hm : failureCode mismatch ≠ 0x6 ∧ failureInfo mismatch = 0x00) :
    failureInfo failure = if failureCode failure = 0x6 then s.rxbuf[2] else 0x00 := by
  rcases decodeFront_eq_some h with ⟨rfl, _⟩ | ⟨_, _, ⟨rfl, _⟩ | ⟨_, _, ⟨rfl, _⟩ | ⟨rfl, _⟩⟩⟩
  · rfl
  · rw [if_neg hm.1, hm.2]
  · rfl
  · simp [failureInfo, failureCode]

/-! ### The decoders -/

/-- `DEC_READ` fails with the first test that fails, or delivers the values (R93, R98). -/
theorem decodeRead_cases (s : State) :
    (∃ failure, checkReadResponse s = some failure ∧
      decodeRead s = { s with status := failureCode failure, resCount := 0, exc := failureInfo failure }) ∨
    (checkReadResponse s = none ∧
      decodeRead s =
        { s with result := decodedResult s, resCount := loByte s.count, exc := 0x00, status := 0x0 }) := by
  unfold decodeRead
  cases h : checkReadResponse s with
  | some failure => exact .inl ⟨failure, rfl, rfl⟩
  | none => exact .inr ⟨rfl, rfl⟩

/-- `DEC_WRITE` fails with the first test that fails, or acknowledges (R94, R98). -/
theorem decodeWrite_cases (s : State) :
    (∃ failure, checkWriteResponse s = some failure ∧
      decodeWrite s = { s with status := failureCode failure, resCount := 0, exc := failureInfo failure }) ∨
    (checkWriteResponse s = none ∧ decodeWrite s = { s with resCount := 0, exc := 0x00, status := 0x0 }) := by
  unfold decodeWrite
  cases h : checkWriteResponse s with
  | some failure => exact .inl ⟨failure, rfl, rfl⟩
  | none => exact .inr ⟨rfl, rfl⟩

theorem checkReadResponse_eq_none_iff (s : State) : checkReadResponse s = none ↔
    countLegal s = true ∧ decodeFront Config.fcRead (5 + 2 * s.count.toNat) .functionMismatch s = none := by
  unfold checkReadResponse
  cases countLegal s <;> simp

theorem checkWriteResponse_eq_none_iff (s : State) : checkWriteResponse s = none ↔
    decodeFront Config.fcWrite Config.requestLength .unexpectedEcho s = none ∧ echoMatches s = true := by
  unfold checkWriteResponse
  cases decodeFront Config.fcWrite Config.requestLength .unexpectedEcho s with
  | some f => simp
  | none => cases echoMatches s <;> simp

theorem failureInfo_of_checkReadResponse {failure : Failure} {s : State} (h : checkReadResponse s = some failure) :
    failureInfo failure = if failureCode failure = 0x6 then s.rxbuf[2] else 0x00 := by
  unfold checkReadResponse at h
  split at h
  · exact failureInfo_of_decodeFront h (by decide)
  · cases h
    rfl

theorem failureInfo_of_checkWriteResponse {failure : Failure} {s : State} (h : checkWriteResponse s = some failure) :
    failureInfo failure = if failureCode failure = 0x6 then s.rxbuf[2] else 0x00 := by
  unfold checkWriteResponse at h
  split at h
  · cases h
    exact failureInfo_of_decodeFront (by assumption) (by decide)
  · split at h
    · cases h
    · cases h
      rfl

/-- A legal count fits the 8-bit `RES_COUNT` (R23). -/
theorem loByte_toNat_of_le (v : Word) (h : v.toNat ≤ 255) : (loByte v).toNat = v.toNat := by
  simp [loByte]
  omega

end Sys2Proof.Machine
end

