-- ==== Sys2Proof/Laws/Decode.lean ====
section
/-! SUPPORT. What the decoders of frames do on bytes written out (spec 30_encoding.md R58 to R62). -/

namespace Sys2Proof

/-- The payload of a read response is read back as its values and trailer. -/
theorem readPayload_wordsBytes (regs : List Word) (crc : Word) :
    readPayload (wordsBytes regs ++ leBytes crc) = some (regs, crc) := by
  induction regs with
  | nil => simp [wordsBytes, leBytes, readPayload]
  | cons w ws ih =>
    obtain ⟨b, rest, hb⟩ : ∃ b rest, wordsBytes ws ++ leBytes crc = b :: rest := by
      cases ws <;> exact ⟨_, _, rfl⟩
    simp only [wordsBytes, beBytes, List.cons_append, List.nil_append]
    rw [hb] at ih ⊢
    simp [readPayload, ih]

/-- Whatever `readPayload` reads is what stood there. -/
theorem wordsBytes_of_readPayload (bytes : List Byte) : ∀ regs crc, readPayload bytes = some (regs, crc) →
    bytes = wordsBytes regs ++ leBytes crc := by
  induction bytes using readPayload.induct with
  | case1 => intro regs crc h; simp [readPayload] at h
  | case2 => intro regs crc h; simp [readPayload] at h
  | case3 lo hi =>
    intro regs crc h
    simp only [readPayload, Option.some.injEq, Prod.mk.injEq] at h
    obtain ⟨rfl, rfl⟩ := h
    simp [wordsBytes, leBytes]
  | case4 hi lo next rest regs' crc' h' ih =>
    intro regs crc h
    simp only [readPayload, h', Option.some.injEq, Prod.mk.injEq] at h
    obtain ⟨rfl, rfl⟩ := h
    simp [wordsBytes, beBytes, ih _ _ h']
  | case5 hi lo next rest h' ih =>
    intro regs crc h
    simp [readPayload, h'] at h

/-- The eight commands have pairwise different codes, and `decodeCommand` reads each back (R53). -/
theorem decodeCommand_eq_ok {w : Word} {i : Instr} (h : decodeCommand w = .ok i) :
    (w = 0x0001 ∧ i = .crcInit) ∨ (w = 0x0002 ∧ i = .crcByte) ∨ (w = 0x0003 ∧ i = .crcBuf) ∨
    (w = 0x0004 ∧ i = .crcCheck) ∨ (w = 0x0005 ∧ i = .encRead) ∨ (w = 0x0006 ∧ i = .encWrite) ∨
    (w = 0x0007 ∧ i = .decRead) ∨ (w = 0x0008 ∧ i = .decWrite) := by
  unfold decodeCommand at h
  repeat' split at h
  all_goals first
    | (cases h; simp [*])
    | cases h

/-- A command's code is one of 1 to 8 (R53). -/
theorem code_range_of_decodeCommand {w : Word} {i : Instr} (h : decodeCommand w = .ok i) : 1 ≤ w.toNat ∧ w.toNat ≤ 8 := by
  unfold decodeCommand at h
  repeat' split at h
  all_goals
    cases h
    try
      subst w
      decide

/-- Every other word is reserved (R54). -/
theorem decodeCommand_reserved {w : Word} (h : w = 0x0000 ∨ 0x0009 ≤ w.toNat) :
    decodeCommand w = .error .reservedCommand := by
  cases hd : decodeCommand w with
  | ok i =>
    have hw := code_range_of_decodeCommand hd
    rcases h with rfl | h
    · simp at hw
    · omega
  | error e =>
    unfold decodeCommand at hd
    repeat' split at hd
    all_goals cases hd
    rfl

/-- The layout of a frame's bytes: body, then trailer low byte first (R57). -/
theorem frameBytes_eq {i : Instr} {crc : Word} (h : frameCrc? i = some crc) : frameBytes i = frameBody i ++ leBytes crc := by
  simp [frameBytes, h]

theorem length_frameBytes_rspRead (unit byteCount : Byte) (regs : List Word) (crc : Word) :
    (frameBytes (.rspRead unit byteCount regs crc)).length = 5 + 2 * regs.length := by
  simp [frameBytes, frameCrc?, frameBody, leBytes]; omega

/-- A frame that fits its layout fits `RX_LEN` (R65). -/
theorem length_frameBytes_le {i : Instr} (h : i.fits = true) : (frameBytes i).length ≤ 255 := by
  cases i <;> try (simp [frameBytes, frameCrc?, frameBody, requestBody, beBytes, leBytes]; done)
  rw [length_frameBytes_rspRead]
  have h2 : 1 ≤ _ ∧ _ ≤ 125 := of_decide_eq_true h
  omega

/-- A well-formed frame fits its encoding. -/
theorem Instr.fits_of_wf {i : Instr} (h : i.wf = true) : i.fits = true := by
  simp only [Instr.wf, Bool.and_eq_true] at h
  exact h.1.1

/-- A well-formed frame's trailer is the CRC of its body (R57). -/
theorem Instr.trailer_of_wf {i : Instr} {crc : Word} (h : i.wf = true) (hc : frameCrc? i = some crc) :
    crc16 (frameBody i) = crc := by
  simp only [Instr.wf, Bool.and_eq_true, Instr.trailerRight, hc, beq_iff_eq] at h
  exact h.2

/-- A sequence completed with its right trailer passes the verifier (40_crc.md R76). -/
theorem crcOk_withTrailer (body : List Byte) : crcOk (withTrailer body) = true := by
  unfold withTrailer leBytes
  rw [crcOk_append]
  simp

/-- So does a well-formed frame. -/
theorem crcOk_frameBytes {i : Instr} {crc : Word} (h : i.wf = true) (hc : frameCrc? i = some crc) :
    crcOk (frameBytes i) = true := by
  rw [frameBytes_eq hc, ← Instr.trailer_of_wf h hc]
  exact crcOk_withTrailer _

end Sys2Proof
end

