-- ==== Sys2Proof/Laws/PerInstr.lean ====
section
/-! SUPPORT. Statements about every row of the opcode table, one lemma per constructor. -/

namespace Sys2Proof.Laws.EncodeLength

/-- The length of each format in bytes (spec 30_encoding.md R52, R58 to R62, R65). -/
def formatLength : Instr → Nat
  | .crcInit => 2
  | .crcByte => 2
  | .crcBuf => 2
  | .crcCheck => 2
  | .encRead => 2
  | .encWrite => 2
  | .decRead => 2
  | .decWrite => 2
  | .reqRead _ _ _ _ => 8
  | .reqWrite _ _ _ _ => 8
  | .rspRead _ _ regs _ => 5 + 2 * regs.length
  | .rspWrite _ _ _ _ => 8
  | .rspReadExc _ _ _ => 5
  | .rspWriteExc _ _ _ => 5

/-- The encoding of the row has the length of its format. -/
def Statement (i : Instr) : Prop := (encode i).length = formatLength i

theorem crcInit : Statement .crcInit := rfl
theorem crcByte : Statement .crcByte := rfl
theorem crcBuf : Statement .crcBuf := rfl
theorem crcCheck : Statement .crcCheck := rfl
theorem encRead : Statement .encRead := rfl
theorem encWrite : Statement .encWrite := rfl
theorem decRead : Statement .decRead := rfl
theorem decWrite : Statement .decWrite := rfl
theorem reqRead (unit : Byte) (addr count crc : Word) : Statement (.reqRead unit addr count crc) := rfl
theorem reqWrite (unit : Byte) (addr value crc : Word) : Statement (.reqWrite unit addr value crc) := rfl
theorem rspRead (unit byteCount : Byte) (regs : List Word) (crc : Word) : Statement (.rspRead unit byteCount regs crc) :=
  length_frameBytes_rspRead unit byteCount regs crc
theorem rspWrite (unit : Byte) (addr value crc : Word) : Statement (.rspWrite unit addr value crc) := rfl
theorem rspReadExc (unit code : Byte) (crc : Word) : Statement (.rspReadExc unit code crc) := rfl
theorem rspWriteExc (unit code : Byte) (crc : Word) : Statement (.rspWriteExc unit code crc) := rfl

end Sys2Proof.Laws.EncodeLength
end

