-- ==== Sys2Proof/Laws/Step.lean ====
section
/-! SUPPORT. What a meaning, a script line and a step can do, said once (spec 20_memory.md R37 to R39, 10_state.md R32). -/

namespace Sys2Proof.Machine

/-- The state a row's meaning leaves. Every meaning is a total function of the state (`exec_eq`;
70_reset_and_hazards.md R132). -/
def effect (i : Instr) (s : State) : State :=
  match exec i s with
  | .next t => t
  | .fault _ => s
  | .refused _ => s

theorem exec_eq (i : Instr) (s : State) : exec i s = .next (effect i s) := by
  cases i <;> try rfl
  simp only [effect, exec, execCrcCheck]
  cases checkTrailer s <;> rfl

theorem effect_crcCheck (s : State) :
    effect .crcCheck s = { s with status := (checkTrailer s).elim 0x0 failureCode } := by
  simp only [effect, exec, execCrcCheck]
  cases checkTrailer s <;> rfl

/-! ### The meanings and the model's own fields -/

theorem decodeRead_setScript (s : State) (x : List HostEvent) :
    decodeRead (s.setScript x) = (decodeRead s).setScript x := by
  unfold decodeRead
  change (match checkReadResponse s with | some f => _ | none => _) = _
  cases checkReadResponse s <;> rfl

theorem decodeWrite_setScript (s : State) (x : List HostEvent) :
    decodeWrite (s.setScript x) = (decodeWrite s).setScript x := by
  unfold decodeWrite
  change (match checkWriteResponse s with | some f => _ | none => _) = _
  cases checkWriteResponse s <;> rfl

theorem encodeRead_setScript (s : State) (x : List HostEvent) :
    encodeRead (s.setScript x) = (encodeRead s).setScript x := by
  cases h : countLegal s
  · rw [encodeRead_illegal s h, encodeRead_illegal (s.setScript x) h]; rfl
  · rw [encodeRead_legal s h, encodeRead_legal (s.setScript x) h]; rfl

/-- A meaning never reads or writes the script. -/
theorem effect_setScript (i : Instr) (s : State) (x : List HostEvent) :
    effect i (s.setScript x) = (effect i s).setScript x := by
  cases i
  case crcCheck =>
    simp only [effect_crcCheck]
    rfl
  case encRead => exact encodeRead_setScript s x
  case decRead => exact decodeRead_setScript s x
  case decWrite => exact decodeWrite_setScript s x
  case reqRead u a n _ => exact encodeRead_setScript (((s.setUnit u).setAddr a).setCount n) x
  case rspRead u b r c => exact decodeRead_setScript (loadReceived (frameBytes (.rspRead u b r c)) s) x
  case rspWrite u a v c => exact decodeWrite_setScript (loadReceived (frameBytes (.rspWrite u a v c)) s) x
  case rspReadExc u e c => exact decodeRead_setScript (loadReceived (frameBytes (.rspReadExc u e c)) s) x
  case rspWriteExc u e c => exact decodeWrite_setScript (loadReceived (frameBytes (.rspWriteExc u e c)) s) x
  all_goals rfl

theorem effect_script (i : Instr) (s : State) : (effect i s).script = s.script := by
  have h := congrArg State.script (effect_setScript i s s.script)
  rwa [show s.setScript s.script = s from rfl, State.setScript_script] at h

/-! ### Script lines -/

/-- A write to `CMD` runs the command with that code, or is illegal (20_memory.md R39, 30_encoding.md R54). -/
theorem hostWrite_cmd (v : Word) (s : State) : hostWrite 0x000 v s = runCommand v s := rfl

theorem runCommand_ok {v : Word} {i : Instr} (h : decodeCommand v = .ok i) (s : State) :
    runCommand v s = .next (effect i s) := by
  simp [runCommand, decode, h, exec_eq]

theorem runCommand_error {v : Word} {e : DecodeError} (h : decodeCommand v = .error e) (s : State) :
    runCommand v s = .next { s with status := 0xF } := by
  simp [runCommand, decode, h, illegalCommand_eq]

/-- Any other write changes the addressed register, or nothing (20_memory.md R38). -/
theorem hostWrite_of_ne {a : Index} (h : a ≠ 0x000) (v : Word) (s : State) :
    hostWrite a v s = .next (writeReg (regAt a) v s) := by
  simp [hostWrite, (regAt_eq_cmd_iff a).not.mpr h]

theorem runFrame_ok {c : Code} {i : Instr} (h : decode c = .ok i) (s : State) : runFrame c s = .next (effect i s) := by
  simp [runFrame, h, exec_eq]

@[simp] theorem runLines_nil (s : State) : runLines [] s = .next s := rfl

theorem runLines_cons_next {e : HostEvent} {s t : State} (h : serve e s = .next t) (es : List HostEvent) :
    runLines (e :: es) s = runLines es t := by
  simp [runLines, h]

/-- The script a frame or command code is presented by runs exactly its instruction. -/
theorem serve_eventOf {c : Code} {i : Instr} (h : decode c = .ok i) (s : State) :
    serve (eventOf c) s = .next (effect i s) := by
  cases c with
  | command w => exact runCommand_ok h s
  | request b => exact runFrame_ok h s
  | response b => exact runFrame_ok h s

theorem serve_request_error {bytes : List Byte} {e : DecodeError} (h : decode (.request bytes) = .error e) (s : State) :
    serve (.request bytes) s = refuseFrame e := by
  simp [serve, runFrame, h]

theorem serve_response_error {bytes : List Byte} {e : DecodeError} (h : decode (.response bytes) = .error e)
    (s : State) : serve (.response bytes) s = refuseFrame e := by
  simp [serve, runFrame, h]

/-- Lines before others: once they end in a next state, the rest starts there. -/
theorem runLines_append {before : List HostEvent} {s t : State} (h : runLines before s = .next t)
    (after : List HostEvent) : runLines (before ++ after) s = runLines after t := by
  induction before generalizing s with
  | nil =>
    cases h
    rfl
  | cons e es ih =>
    simp only [List.cons_append, runLines] at h ⊢
    cases hs : serve e s with
    | next u => rw [hs] at h; exact ih h
    | fault r => rw [hs] at h; cases h
    | refused r => rw [hs] at h; cases h

theorem step_nil {s : State} (h : s.script = []) : step s = .next s := by
  simp [step, serveNext, h]

theorem step_cons {s : State} {e : HostEvent} {rest : List HostEvent} (h : s.script = e :: rest) :
    step s = serve e (s.setScript rest) := by
  simp [step, serveNext, h]

end Sys2Proof.Machine
end

