-- ==== Sys2Proof/Tests/Slice0.lean ====
section
/-! SUPPORT. The model's own tests. Expected results come from spec/ (95_test_vectors.md parts 1 to 7, and the encodings of
30_encoding.md written out bit by bit), never from the model. The last part shows, for each statement of
Certificates/Slice0/Obligations.lean that has hypotheses, a concrete state and operands that meet them. -/

namespace Sys2Proof.Tests

open Sys2Proof.Machine Sys2Proof.Safety

-- One theorem after another: each kernel check of this file would otherwise hold a thread of its own.
set_option Elab.async false

/-! ### Small states -/

/-- Reset, then the request registers. The buffers keep their free contents. -/
def asked (unit : Byte) (addr count value : Word) : State :=
  { State.reset with unit := unit, addr := addr, count := count, value := value }

/-- The same with a received sequence loaded. -/
def heard (unit : Byte) (addr count value : Word) (bytes : List Byte) : State :=
  loadReceived bytes (asked unit addr count value)

/-- The state of the decoder vectors: unit 1, count 2, address 0x0005, value 0x00FF. -/
def got (bytes : List Byte) : State := heard 0x01 0x0005 2 0x00FF bytes

/-! ### Decoding: words and bytes written out from 30_encoding.md R53, R58 to R62 -/

theorem test_decode_crcInit : decode (.command 0b0000000000000001) = .ok .crcInit := by decide
theorem test_decode_crcByte : decode (.command 0b0000000000000010) = .ok .crcByte := by decide
theorem test_decode_crcBuf : decode (.command 0b0000000000000011) = .ok .crcBuf := by decide
theorem test_decode_crcCheck : decode (.command 0b0000000000000100) = .ok .crcCheck := by decide
theorem test_decode_encRead : decode (.command 0b0000000000000101) = .ok .encRead := by decide
theorem test_decode_encWrite : decode (.command 0b0000000000000110) = .ok .encWrite := by decide
theorem test_decode_decRead : decode (.command 0b0000000000000111) = .ok .decRead := by decide
theorem test_decode_decWrite : decode (.command 0b0000000000001000) = .ok .decWrite := by decide

/-- S6: unit 1, address 0x0010, count 2. -/
theorem test_decode_reqRead :
    decode (.request [0b00000001, 0b00000011, 0b00000000, 0b00010000, 0b00000000, 0b00000010, 0b11000101, 0b11001110]) =
      .ok (.reqRead 0x01 0x0010 0x0002 0xCEC5) := by decide
/-- S7: unit 1, address 0x0005, value 0x00FF. -/
theorem test_decode_reqWrite :
    decode (.request [0b00000001, 0b00000110, 0b00000000, 0b00000101, 0b00000000, 0b11111111, 0b11011001, 0b10001011]) =
      .ok (.reqWrite 0x01 0x0005 0x00FF 0x8BD9) := by decide
/-- The reply of S6. -/
theorem test_decode_rspRead :
    decode (.response [0b00000001, 0b00000011, 0b00000100, 0b00000000, 0b00101010, 0b00000000, 0b00101011, 0b10011011,
      0b11100100]) = .ok (.rspRead 0x01 0x04 [0x002A, 0x002B] 0xE49B) := by decide
/-- EW6's frame as an echo: 12 34 and AB CD, high byte first. -/
theorem test_decode_rspWrite :
    decode (.response [0b11110111, 0b00000110, 0b00010010, 0b00110100, 0b10101011, 0b11001101, 0b01100111, 0b01001111]) =
      .ok (.rspWrite 0xF7 0x1234 0xABCD 0x4F67) := by decide
/-- S5. -/
theorem test_decode_rspReadExc :
    decode (.response [0b00000001, 0b10000011, 0b00000010, 0b11000000, 0b11110001]) =
      .ok (.rspReadExc 0x01 0x02 0xF1C0) := by decide
/-- DW12. -/
theorem test_decode_rspWriteExc :
    decode (.response [0b00000001, 0b10000110, 0b00000010, 0b11000011, 0b10100001]) =
      .ok (.rspWriteExc 0x01 0x02 0xA1C3) := by decide

/-- R54: reserved codes are refused, the full 16 bits compared (HA12 to HA15). -/
theorem test_decode_reserved :
    decode (.command 0x0000) = .error .reservedCommand ∧ decode (.command 0x0009) = .error .reservedCommand ∧
    decode (.command 0x0105) = .error .reservedCommand ∧ decode (.command 0xFFFF) = .error .reservedCommand := by
  decide
/-- R58 to R62: wrong lengths and wrong function codes are refused. -/
theorem test_decode_not_frames :
    decode (.request [1, 3, 0, 0, 0, 1, 0x84]) = .error .wrongLength ∧
    decode (.request [1, 4, 0, 0, 0, 1, 0, 0]) = .error .wrongFunction ∧
    decode (.response [1, 3, 0, 0, 0]) = .error .wrongLength ∧
    decode (.response [1, 3, 0, 0, 0, 0]) = .error .wrongLength ∧
    decode (.response [1, 0x84, 2, 0, 0]) = .error .wrongFunction ∧
    decode (.response [1]) = .error .wrongLength := by decide
/-- R71: `REQ_WRITE` and `RSP_WRITE` share their bytes and differ in direction. -/
theorem test_decode_direction :
    decode (.request [1, 6, 0, 5, 0, 0xFF, 0xD9, 0x8B]) = .ok (.reqWrite 1 5 0xFF 0x8BD9) ∧
    decode (.response [1, 6, 0, 5, 0, 0xFF, 0xD9, 0x8B]) = .ok (.rspWrite 1 5 0xFF 0x8BD9) := by decide

/-! ### Well-formedness: an ill-formed term for each check -/

/-- `fits`: a read response of no value and one of 126. -/
theorem test_wf_refuses_no_values : (Instr.rspRead 1 0 [] 0).fits = false ∧ (Instr.rspRead 1 0 [] 0).wf = false := by decide
theorem test_wf_refuses_too_many_values :
    (Instr.rspRead 1 0xFC (List.replicate 126 0) 0).fits = false ∧
    (Instr.rspRead 1 0xFC (List.replicate 126 0) 0).wf = false := by decide +kernel
/-- `countLegal`: counts 0 and 126, each with its right trailer. -/
theorem test_wf_refuses_count_zero :
    (Instr.reqRead 1 0 0 (crc16 [1, 3, 0, 0, 0, 0])).trailerRight = true ∧
    (Instr.reqRead 1 0 0 (crc16 [1, 3, 0, 0, 0, 0])).wf = false := by decide +kernel
theorem test_wf_refuses_count_126 :
    (Instr.reqRead 1 0 126 (crc16 [1, 3, 0, 0, 0, 126])).trailerRight = true ∧
    (Instr.reqRead 1 0 126 (crc16 [1, 3, 0, 0, 0, 126])).wf = false := by decide +kernel
/-- `trailerRight`: each frame kind with one bit of its trailer flipped. -/
theorem test_wf_refuses_wrong_trailers :
    ∀ i ∈ [Instr.reqRead 1 0x10 2 0xCEC4, .reqWrite 1 5 0xFF 0x8BD8, .rspRead 1 4 [0x2A, 0x2B] 0xE49A,
      .rspWrite 1 5 0xFF 0x0BD9, .rspReadExc 1 2 0xF1C1, .rspWriteExc 1 2 0x21C3], i.wf = false := by decide +kernel
/-- The same frames with the trailers of part 1 and part 6 are well formed. -/
theorem test_wf_accepts :
    ∀ i ∈ [Instr.reqRead 1 0x10 2 0xCEC5, .reqWrite 1 5 0xFF 0x8BD9, .rspRead 1 4 [0x2A, 0x2B] 0xE49B,
      .rspWrite 1 5 0xFF 0x8BD9, .rspReadExc 1 2 0xF1C0, .rspWriteExc 1 2 0xA1C3, .crcInit, .decWrite], i.wf = true := by
  decide +kernel

/-! ### The pure functions (part 2) -/

theorem test_crcBit : crcBit 0x0001 = 0xA001 ∧ crcBit 0xFFFF = 0xDFFE ∧ crcBit 0x4002 = 0x2001 := by decide
theorem test_crcByte : crcByte 0xFFFF 0xA5 = 0x3B7F ∧ crcByte 0x1234 0x56 = 0xE993 ∧ crcByte 0x000A 0x0A = 0 := by decide
theorem test_crc16 : crc16 [] = 0xFFFF ∧ crc16 [0x31, 0x32, 0x33, 0x34, 0x35, 0x36, 0x37, 0x38, 0x39] = 0x4B37 := by decide +kernel

/-! ### The commands (parts 3 to 7), at most two tests each -/

theorem test_crcInit : (effect .crcInit { asked 0 0 0 0 with crc := 0x1234, status := 0x6 }).crc = 0xFFFF ∧
    (effect .crcInit { asked 0 0 0 0 with crc := 0x1234, status := 0x6 }).status = 0x0 := by decide
/-- Streaming: 0x01 fed twice without a new `DATA`. -/
theorem test_crcByte_twice : (effect .crcByte { State.reset with data := 0x01 }).crc = 0x807E ∧
    (effect .crcByte { State.reset with data := 0x01, crc := 0x807E }).crc = 0xE0C1 := by decide
/-- S1, and HA19: no bytes. -/
theorem test_crcBuf : (effect .crcBuf (got [1, 3, 0, 0, 0, 1])).crc = 0x0A84 ∧
    (effect .crcBuf { State.reset with crc := 0x1111 }).crc = 0xFFFF := by decide +kernel
/-- CK2, CK3. -/
theorem test_crcCheck_short : (effect .crcCheck (got [0xFF])).status = 0x2 ∧
    (effect .crcCheck (got [0xFF, 0xFF])).status = 0x0 := by decide
/-- CK7: the trailer's bytes swapped; `CRC` is untouched. -/
theorem test_crcCheck_swapped : (effect .crcCheck (got [1, 3, 0, 0, 0, 1, 0x0A, 0x84])).status = 0x3 ∧
    (effect .crcCheck (got [1, 3, 0, 0, 0, 1, 0x0A, 0x84])).crc = 0xFFFF := by decide +kernel
/-- ER6. -/
theorem test_encRead : (effect .encRead (asked 0xFF 0x1234 125 0)).txbuf =
    #v[0xFF, 0x03, 0x12, 0x34, 0x00, 0x7D, 0xD4, 0x83] ∧
    (effect .encRead (asked 0xFF 0x1234 125 0)).txLen = 8 := by decide +kernel
/-- ER11: count 258 is refused although its low byte is legal. -/
theorem test_encRead_refused : (effect .encRead { asked 1 0x10 258 0 with txLen := 8 }).status = 0x1 ∧
    (effect .encRead { asked 1 0x10 258 0 with txLen := 8 }).txLen = 0 := by decide
/-- EW6. -/
theorem test_encWrite : (effect .encWrite (asked 0xF7 0x1234 0 0xABCD)).txbuf =
    #v[0xF7, 0x06, 0x12, 0x34, 0xAB, 0xCD, 0x67, 0x4F] ∧
    (effect .encWrite (asked 0xF7 0x1234 0 0xABCD)).status = 0x0 := by decide +kernel
/-- DR24: a three-register reply to a two-register request. -/
theorem test_decRead :
    let t := effect .decRead (got [1, 3, 6, 0, 0x2A, 0, 0x2B, 0, 0x2C, 0x49, 0x66])
    t.status = 0x0 ∧ t.resCount = 2 ∧ t.result[0] = 0x002A ∧ t.result[1] = 0x002B := by decide +kernel
/-- DR14 and DR12: an exception with a bad trailer; a wrong function that is too short. -/
theorem test_decRead_order :
    (effect .decRead (got [1, 0x83, 2, 0xC0, 0xF0])).status = 0x3 ∧
    (effect .decRead (got [1, 0x83, 2, 0xC0, 0xF0])).exc = 0x00 ∧
    (effect .decRead (got [1, 4, 4, 0, 0x2A, 0])).status = 0x2 := by decide +kernel
/-- DW16: a surplus byte before a right trailer. -/
theorem test_decWrite : (effect .decWrite (got [1, 6, 0, 5, 0, 0xFF, 0x77, 0x0A, 0xBC])).status = 0x0 := by decide +kernel
/-- DW8, DW7, DW12. -/
theorem test_decWrite_order :
    (effect .decWrite (got [1, 6, 0, 5, 0, 0xFE, 0xD9, 0x8B])).status = 0x3 ∧
    (effect .decWrite (got [1, 6, 0, 6, 0, 0xFF, 0x29, 0x8B])).status = 0x5 ∧
    (effect .decWrite (got [1, 0x86, 2, 0xC3, 0xA1])).exc = 0x02 := by decide +kernel

/-! ### The frame rows -/

/-- ER1, with a wrong trailer in the term: the block computes its own. -/
theorem test_reqRead : (effect (.reqRead 1 0x10 2 0) State.reset).txbuf = #v[1, 3, 0, 0x10, 0, 2, 0xC5, 0xCE] ∧
    (effect (.reqRead 1 0x10 2 0) State.reset).count = 2 := by decide +kernel
/-- ER9. -/
theorem test_reqRead_refused : (effect (.reqRead 1 0x10 126 0) State.reset).status = 0x1 := by decide
/-- EW1. -/
theorem test_reqWrite : (effect (.reqWrite 1 5 0xFF 0x8BD9) State.reset).txbuf = #v[1, 6, 0, 5, 0, 0xFF, 0xD9, 0x8B] ∧
    (effect (.reqWrite 1 5 0xFF 0x8BD9) State.reset).value = 0x00FF := by decide +kernel
/-- DR1 and DR26: the byte count is not checked. -/
theorem test_rspRead :
    (effect (.rspRead 1 4 [0x2A, 0x2B] 0xE49B) (asked 1 0 2 0)).result[1] = 0x002B ∧
    (effect (.rspRead 1 9 [0x2A, 0x2B] 0x25B6) (asked 1 0 2 0)).status = 0x0 := by decide +kernel
/-- DW1, DW6. -/
theorem test_rspWrite :
    (effect (.rspWrite 1 5 0xFF 0x8BD9) (asked 1 5 0 0xFF)).status = 0x0 ∧
    (effect (.rspWrite 1 5 0xFE 0x4B18) (asked 1 5 0 0xFF)).status = 0x5 := by decide +kernel
/-- DR13, DR18. -/
theorem test_rspReadExc :
    (effect (.rspReadExc 1 2 0xF1C0) (asked 1 0 2 0)).status = 0x6 ∧
    (effect (.rspReadExc 1 0xFF 0x7001) (asked 1 0 2 0)).exc = 0xFF := by decide +kernel
/-- DW13, DW14. -/
theorem test_rspWriteExc :
    (effect (.rspWriteExc 1 3 0x6102) (asked 1 5 0 0xFF)).exc = 0x03 ∧
    (effect (.rspWriteExc 1 2 0xA0C3) (asked 1 5 0 0xFF)).status = 0x3 := by decide +kernel

/-! ### Host access and the step (part 7) -/

/-- HA5 to HA8. -/
theorem test_hostWrite_widths :
    (writeReg (regAt 0x003) 0x01FF State.reset).unit = 0xFF ∧ (writeReg (regAt 0x00A) 0x0100 State.reset).rxLen = 0 ∧
    (writeReg (regAt 0x100) 0x1234 State.reset).rxbuf[0] = 0x34 ∧
    (writeReg (regAt 0x004) 0xBEEF State.reset).addr = 0xBEEF := by decide
/-- HA10: the reserved indices at the edges of the map, and their neighbours. -/
theorem test_map_edges :
    ([0x00C, 0x00F, 0x018, 0x0FF, 0x27D, 0x3FF].map regAt) = List.replicate 6 .reserved ∧ regAt 0x00B = .resCount ∧
    regAt 0x010 = .txbuf 0 ∧ regAt 0x017 = .txbuf 7 ∧ regAt 0x100 = .rxbuf 0 ∧ regAt 0x1FF = .rxbuf 255 ∧
    regAt 0x200 = .result 0 ∧ regAt 0x27C = .result 124 := by decide
/-- HA14: 0x0105 is not `ENC_READ`. -/
theorem test_illegalCommand : ∃ t, hostWrite 0x000 0x0105 State.reset = .next t ∧ t.status = 0xF ∧ t.txLen = 0 :=
  ⟨_, rfl, rfl, rfl⟩
/-- HA17, two of its reads: `STATUS`, `CRC`. -/
theorem test_reads_after_reset : ∃ t, runLines [.rd 0x001, .rd 0x008] State.reset = .next t ∧ t.reads = [0x0000, 0xFFFF] :=
  ⟨_, rfl, rfl⟩
/-- The rows as the opcode table numbers them (log 6). -/
theorem test_decodeTableWord : decodeTableWord 16 0x0006 = some .encWrite ∧ decodeTableWord 8 0x83 = some (.rspReadExc 0 0 0) ∧
    decodeTableWord 8 0x03 = some (.rspRead 0 0 [0] 0) ∧ decodeTableWord 8 0x06 = some (.rspWrite 0 0 0 0) ∧
    decodeTableWord 8 0x86 = some (.rspWriteExc 0 0 0) ∧ decodeTableWord 16 0x0103 = some (.reqRead 0 0 0 0) ∧
    decodeTableWord 16 0x0106 = some (.reqWrite 0 0 0 0) ∧ decodeTableWord 16 0x0105 = none ∧
    decodeTableWord 64 0x010300100002C5CE = some (.reqRead 1 0x10 2 0xCEC5) ∧
    decodeTableWord 40 0x018302C0F1 = some (.rspReadExc 1 2 0xF1C0) := by decide

/-! ### Witnesses: a state and operands that meet the hypotheses of each statement that has any -/

/-- One read response with `values` from unit 1. -/
def readReply (values : List Word) : List Byte :=
  withTrailer (0x01 :: 0x03 :: BitVec.ofNat 8 (2 * values.length) :: wordsBytes values)

theorem witness_crcOk : 2 ≤ ([0xFF, 0xFF] : List Byte).length ∧ crcOk [0xFF, 0xFF] = true ∧
    2 ≤ ([0x00, 0x00] : List Byte).length ∧ crcOk [0x00, 0x00] = false := by decide

/-- `FieldsAreSplitAndAssembled`: a frame and its trailer. -/
theorem witness_fields : frameCrc? (.rspWrite 1 5 0xFF 0x8BD9) = some 0x8BD9 := by decide

theorem witness_crcCheck : ∃ a b c : State, (a.rxLen.toNat < 2 ∧ a.rxLen = 1) ∧
    (¬ b.rxLen.toNat < 2 ∧ crcOk (b.rxbuf.toList.take b.rxLen.toNat) = true) ∧
    (¬ c.rxLen.toNat < 2 ∧ crcOk (c.rxbuf.toList.take c.rxLen.toNat) = false) :=
  ⟨got [0xFF], got [0xFF, 0xFF], got [0x00, 0x00], by decide, by decide, by decide⟩

/-- Counts at both ends of both clauses (`EncReadBuildsTheReadRequest`, `ReqReadBuildsItsFrame`). -/
theorem witness_counts : ∃ a b c d : State,
    (1 ≤ a.count.toNat ∧ a.count.toNat ≤ 125 ∧ a.count = 1) ∧ (1 ≤ b.count.toNat ∧ b.count.toNat ≤ 125 ∧ b.count = 125) ∧
    (c.count.toNat < 1 ∨ 125 < c.count.toNat) ∧ (d.count.toNat < 1 ∨ 125 < d.count.toNat) ∧ c.count = 0 ∧ d.count = 126 :=
  ⟨asked 1 0 1 0, asked 1 0 125 0, asked 1 0 0 0, asked 1 0 126 0, by decide, by decide, by decide,
    by decide, rfl, rfl⟩

theorem witness_reserved : ((0x0000 : Word) = 0x0000 ∨ 0x0009 ≤ (0x0000 : Word).toNat) ∧ 0x0009 ≤ (0x0009 : Word).toNat ∧
    0x0009 ≤ (0xFFFF : Word).toNat := by decide

/-- `ExactlyEightWordsAreCommands`, `HostWriteKeepsTheLowBits`: a command word and a reserved one. -/
theorem witness_command_words : decode (.command 0x0001) = .ok .crcInit ∧ decode (.command 0x0008) = .ok .decWrite ∧
    decode (.command 0x0009) = .error .reservedCommand := by decide

/-- The ranges of reserved indices, at their ends (`HostReadReturns...`, `HostWriteKeeps...`). -/
theorem witness_reserved_indices :
    (0x00C ≤ (0x00C : Index).toNat ∧ (0x00C : Index).toNat ≤ 0x00F) ∧ (0x00F : Index).toNat ≤ 0x00F ∧
    (0x018 ≤ (0x018 : Index).toNat ∧ (0x018 : Index).toNat ≤ 0x0FF) ∧ (0x0FF : Index).toNat ≤ 0x0FF ∧
    0x27D ≤ (0x27D : Index).toNat ∧ 0x27D ≤ (0x3FF : Index).toNat := by decide

theorem witness_other_register : (0x003 : Index) ≠ 0x000 ∧ (0x004 : Index) ≠ 0x003 := by decide

/-- `ReadReturnsTheLatestWrite`: the ends of the `RXBUF` range; the other indices stand in the statement. -/
theorem witness_latest_write : (0x100 ≤ (0x100 : Index).toNat ∧ (0x100 : Index).toNat ≤ 0x1FF) ∧
    (0x100 ≤ (0x1FF : Index).toNat ∧ (0x1FF : Index).toNat ≤ 0x1FF) := by decide

theorem witness_isCommand : IsCommand .crcInit ∧ IsCommand .decWrite ∧ (Instr.crcInit ≠ .crcByte) :=
  ⟨⟨_, rfl⟩, ⟨_, rfl⟩, by decide⟩

/-- `EachOutputHasOneFamilyOfWriters`: a failing `DEC_READ`, an illegal word, an index that is not `CMD`. -/
theorem witness_writers : (∃ t, exec .decRead State.reset = .next t ∧ t.status ≠ 0x0) ∧
    (∀ i, decode (.command 0x0000) ≠ .ok i) ∧ (0x001 : Index) ≠ 0x000 :=
  ⟨⟨_, rfl, by decide⟩, (fun _ h => nomatch h), by decide⟩

/-- `FailingCommandWritesExactlyItsFamilysRegisters`: each command failing, a decode with `ModbusException`, and an illegal
word. -/
theorem witness_failing :
    (effect .crcCheck (got [])).status ≠ 0x0 ∧ (effect .encRead (asked 1 0 0 0)).status ≠ 0x0 ∧
    (effect .decRead (got [])).status ≠ 0x0 ∧ (effect .decRead (got [1, 0x83, 2, 0xC0, 0xF1])).status = 0x6 ∧
    (effect .decWrite (got [])).status ≠ 0x0 ∧ (effect .decWrite (got [1, 0x86, 2, 0xC3, 0xA1])).status = 0x6 ∧
    ∃ t, hostWrite 0x000 0x0009 (got []) = .next t :=
  ⟨by decide +kernel, by decide +kernel, by decide +kernel, by decide +kernel, by decide +kernel, by decide +kernel, _, rfl⟩

/-- `DecodeLeavesBehindByOutcome`: each outcome of both commands. -/
theorem witness_outcomes :
    (effect .decRead (got (readReply [0x2A, 0x2B]))).status = 0x0 ∧
    (effect .decRead (got [1, 0x83, 2, 0xC0, 0xF1])).status = 0x6 ∧
    (effect .decRead (got [1, 4, 4, 0, 0x2A, 0, 0x2B, 0, 0])).status = 0x4 ∧
    (effect .decWrite (got [1, 0x86, 2, 0xC3, 0xA1])).status = 0x6 ∧
    (effect .decWrite (got [1, 6, 0, 5, 0, 0xFF, 0xD9, 0x8B])).status = 0x0 := by decide +kernel

/-- `ExceptionResponseIsReported`: both commands, the shortest sequence, counts at both ends. -/
theorem witness_exception :
    (∀ s ∈ [heard 1 0 1 0 [1, 0x83, 2, 0xC0, 0xF1], heard 1 0 125 0 [1, 0x83, 2, 0xC0, 0xF1]],
      5 ≤ s.rxLen.toNat ∧ s.rxbuf[0] = s.unit ∧ crcOk (received s) = true ∧ s.rxbuf[1] = 0x83 ∧
        1 ≤ s.count.toNat ∧ s.count.toNat ≤ 125) ∧
    (5 ≤ (got [1, 0x86, 2, 0xC3, 0xA1]).rxLen.toNat ∧
      (got [1, 0x86, 2, 0xC3, 0xA1]).rxbuf[0] = (got [1, 0x86, 2, 0xC3, 0xA1]).unit ∧
      crcOk (received (got [1, 0x86, 2, 0xC3, 0xA1])) = true ∧ (got [1, 0x86, 2, 0xC3, 0xA1]).rxbuf[1] = 0x86) := by
  decide +kernel

/-- `ByteCountIsNotCompared`: DR1 and DR26. -/
theorem witness_byteCount :
    let s := got [1, 3, 4, 0, 0x2A, 0, 0x2B, 0x9B, 0xE4]
    let other := (got [1, 3, 9, 0, 0x2A, 0, 0x2B, 0xB6, 0x25]).rxbuf
    (∀ i : Fin 256, i.val ≠ 2 → i.val + 2 ≠ s.rxLen.toNat → i.val + 1 ≠ s.rxLen.toNat → other[i] = s.rxbuf[i]) ∧
    s.rxbuf[1] = 0x03 ∧ other[1] = 0x03 ∧ crcOk (received s) = true ∧ crcOk (received { s with rxbuf := other }) = true ∧
    s.rxbuf[0] = s.unit ∧ 1 ≤ s.count.toNat ∧ s.count.toNat ≤ 125 ∧ 5 + 2 * s.count.toNat ≤ s.rxLen.toNat := by
  refine ⟨?_, by decide +kernel⟩
  intro i h1 h2 h3
  have a : (got [1, 3, 4, 0, 0x2A, 0, 0x2B, 0x9B, 0xE4]).rxLen.toNat = 9 := by decide +kernel
  rw [a] at h2 h3
  by_cases h : 9 ≤ i.val
  · exact (loadReceived_rxbuf_of_le _ _ i (by simpa using h)).trans (loadReceived_rxbuf_of_le _ _ i (by simpa using h)).symm
  · obtain ⟨k, hk⟩ := i
    have hk2 : k = 0 ∨ k = 1 ∨ k = 3 ∨ k = 4 ∨ k = 5 ∨ k = 6 := by
      simp only at h1 h2 h3 h
      omega
    rcases hk2 with rfl | rfl | rfl | rfl | rfl | rfl <;> simp [got, heard]

theorem witness_private : Instr.crcCheck ∈ [Instr.crcCheck, .encRead, .encWrite, .decRead, .decWrite] := by decide

/-- `NothingBeyondRxLenIsRead`: a buffer that differs in entry 255, which no sequence holds. -/
theorem witness_sameReceived : SameReceived (got [1, 2]) { got [1, 2] with rxbuf := (got [1, 2]).rxbuf.set 255 0x77 } ∧
    ((got [1, 2]).rxbuf.set 255 0x77)[255] = 0x77 := by
  refine ⟨⟨rfl, fun i h => ?_⟩, by simp⟩
  have a : (got [1, 2]).rxLen.toNat = 2 := by decide
  rw [a] at h
  exact (Vector.getElem_set_ne (by omega) (by omega) (by omega)).symm

/-- `BuiltFrameHasARightTrailer`. -/
theorem witness_built : (effect .encRead (asked 1 0 1 0)).status = 0x0 ∧ (effect .encWrite (asked 1 0 1 0)).status = 0x0 ∧
    (effect .encRead (asked 1 0 0 0)).status = 0x1 := by decide

/-- `ReadResponseRoundTrip`: 1 value and 125. -/
theorem witness_roundTrip : ∀ values ∈ [[0x1234], List.replicate 125 (0xBEEF : Word)],
    1 ≤ values.length ∧ values.length ≤ 125 ∧
    (heard 1 0 (BitVec.ofNat 16 values.length) 0 (readReply values)).count.toNat = values.length ∧
    received (heard 1 0 (BitVec.ofNat 16 values.length) 0 (readReply values)) =
      withTrailer (0x01 :: 0x03 :: BitVec.ofNat 8 (2 * values.length) :: wordsBytes values) := by
  intro values h
  have hl : values.length = 1 ∨ values.length = 125 := by
    simp only [List.mem_cons, List.not_mem_nil, or_false] at h
    rcases h with rfl | rfl <;> simp
  refine ⟨by omega, by omega, ?_, received_loadReceived _ _ ?_⟩
  · rcases hl with hl | hl <;> rw [hl] <;> rfl
  · simp [readReply, withTrailer, leBytes]
    omega

/-- `AnyTrailerChangeIsACrcMismatch`: DR1 with DR6's trailer, and DW12 with DW14's. -/
theorem witness_trailer :
    (effect .decRead (got [1, 3, 4, 0, 0x2A, 0, 0x2B, 0x9B, 0xE4])).status = 0x0 ∧
    received { got [1, 3, 4, 0, 0x2A, 0, 0x2B, 0x9B, 0xE4] with
      rxbuf := (got [1, 3, 4, 0, 0x2A, 0, 0x2B, 0x9B, 0xE4]).rxbuf.set 7 0x9A } ≠
      received (got [1, 3, 4, 0, 0x2A, 0, 0x2B, 0x9B, 0xE4]) ∧
    (∀ k : Fin 256, k.val ≠ 7 → ((got [1, 3, 4, 0, 0x2A, 0, 0x2B, 0x9B, 0xE4]).rxbuf.set 7 0x9A)[k] =
      (got [1, 3, 4, 0, 0x2A, 0, 0x2B, 0x9B, 0xE4]).rxbuf[k]) ∧
    (effect .decWrite (got [1, 0x86, 2, 0xC3, 0xA1])).status = 0x6 ∧
    received { got [1, 0x86, 2, 0xC3, 0xA1] with rxbuf := (got [1, 0x86, 2, 0xC3, 0xA1]).rxbuf.set 4 0xA0 } ≠
      received (got [1, 0x86, 2, 0xC3, 0xA1]) ∧
    (∀ k : Fin 256, k.val ≠ 4 → ((got [1, 0x86, 2, 0xC3, 0xA1]).rxbuf.set 4 0xA0)[k] =
      (got [1, 0x86, 2, 0xC3, 0xA1]).rxbuf[k]) :=
  ⟨by decide +kernel, by decide +kernel, fun k h => Vector.getElem_set_ne (by omega) k.isLt (fun e => h e.symm),
    by decide +kernel, by decide +kernel, fun k h => Vector.getElem_set_ne (by omega) k.isLt (fun e => h e.symm)⟩

/-- `TrailingZeroBytesAreAccepted`: DR1 with zeros up to the greatest length, and no zero at all. -/
theorem witness_zeros :
    let s := { got ([1, 3, 4, 0, 0x2A, 0, 0x2B, 0x9B, 0xE4] ++ List.replicate 247 0) with rxLen := 9 }
    (effect .decRead s).status = 0x0 ∧ s.rxLen.toNat ≤ (255 : Byte).toNat ∧ s.rxLen.toNat ≤ (9 : Byte).toNat ∧
    (∀ k : Fin 256, s.rxLen.toNat ≤ k.val → k.val < (255 : Byte).toNat → s.rxbuf[k] = 0x00) := by
  decide +kernel

/-- `EchoOfTheOwnRequestIsAcknowledged`. -/
theorem witness_echo : ∃ s t u : State, exec .encWrite s = .next t ∧ SameRequest u t ∧ received u = t.txbuf.toList :=
  ⟨asked 1 5 0 0xFF, _, heard 1 5 0 0xFF (effect .encWrite (asked 1 5 0 0xFF)).txbuf.toList, rfl, ⟨rfl, rfl, rfl, rfl⟩,
    received_loadReceived _ _ (by rw [Vector.length_toList]; decide)⟩

theorem witness_streaming : (List.replicate 255 (0x00 : Byte)).length ≤ 255 := by decide +kernel

/-- `DecodeInvertsEncode`, `EveryRowIsItsHostScript`, `ResponseFrameLoadsItsBytes`: both ends of a read response's range. -/
theorem witness_fits : (Instr.rspRead 1 2 [0x1234] 0).fits = true ∧
    (Instr.rspRead 1 0xFA (List.replicate 125 0) 0).fits = true ∧ Instr.crcInit.fits = true ∧
    (∃ bytes, encode (.rspRead 1 2 [0x1234] 0) = .response bytes) ∧ (∃ bytes, encode (.rspWrite 1 2 3 4) = .response bytes) :=
  ⟨by decide +kernel, by decide +kernel, rfl, ⟨_, rfl⟩, ⟨_, rfl⟩⟩

/-- `EncodeInvertsDecode`. -/
theorem witness_decode : decode (.response [1, 0x83, 2, 0xC0, 0xF1]) = .ok (.rspReadExc 1 2 0xF1C0) := by decide

/-- `ReqReadBuildsItsFrame`, `ReqWriteBuildsItsFrame`: well-formed terms, at both ends of the count (ER2, ER3, EW1). -/
theorem witness_requests : (Instr.reqRead 1 0 1 0x0A84).wf = true ∧ (Instr.reqRead 1 0 125 0xEB85).wf = true ∧
    (Instr.reqWrite 1 5 0xFF 0x8BD9).wf = true := by decide +kernel

/-- `RspReadDeliversItsValues`: one value (DR27) and 125. -/
theorem witness_rspRead :
    ((Instr.rspRead 1 2 [0x1234] 0x33B5).wf = true ∧ (asked 1 0 1 0).unit = 1 ∧ (asked 1 0 1 0).count.toNat = 1) ∧
    ((Instr.rspRead 1 0xFA (List.replicate 125 0)
      (crc16 (0x01 :: 0x03 :: 0xFA :: wordsBytes (List.replicate 125 0)))).wf = true ∧
      (asked 1 0 125 0).count.toNat = (List.replicate 125 (0 : Word)).length) := by
  refine ⟨by decide +kernel, ?_, by decide +kernel⟩
  simp [Instr.wf, Instr.fits, Instr.countLegal, Instr.trailerRight, frameCrc?, frameBody, Config.minCount, Config.maxCount,
    Config.fcRead]

/-- `RspWriteIsAcknowledged`: a request that it echoes, one of another address and one to another unit. -/
theorem witness_rspWrite : (Instr.rspWrite 1 5 0xFF 0x8BD9).wf = true ∧
    ((asked 1 5 0 0xFF).addr = 5 ∧ (asked 1 5 0 0xFF).value = 0xFF) ∧ ¬((asked 1 6 0 0xFF).addr = 5) ∧
    ¬((asked 2 5 0 0xFF).unit = 1) := by decide +kernel

/-- `ExceptionFramesReportTheirCode`: both kinds, counts at both ends. -/
theorem witness_exceptionFrames : (Instr.rspReadExc 1 2 0xF1C0).wf = true ∧ (Instr.rspWriteExc 1 2 0xA1C3).wf = true ∧
    (1 ≤ (asked 1 0 1 0).count.toNat ∧ (asked 1 0 1 0).count.toNat ≤ 125) ∧
    (1 ≤ (asked 1 0 125 0).count.toNat ∧ (asked 1 0 125 0).count.toNat ≤ 125) := by decide +kernel

/-- `StepRunsTheDecodedInstruction`: a command, a request and a response as the next line. -/
theorem witness_step :
    (decode (.command 0x0005) = .ok .encRead ∧
      (State.reset.setScript [eventOf (.command 0x0005)]).script = eventOf (.command 0x0005) :: []) ∧
    (decode (.request [1, 6, 0, 5, 0, 0xFF, 0xD9, 0x8B]) = .ok (.reqWrite 1 5 0xFF 0x8BD9) ∧
      (State.reset.setScript [eventOf (.request [1, 6, 0, 5, 0, 0xFF, 0xD9, 0x8B])]).script =
        eventOf (.request [1, 6, 0, 5, 0, 0xFF, 0xD9, 0x8B]) :: []) ∧
    (decode (.response [1, 0x86, 2, 0xC3, 0xA1]) = .ok (.rspWriteExc 1 2 0xA1C3)) :=
  ⟨⟨rfl, rfl⟩, ⟨by decide, rfl⟩, by decide⟩

theorem witness_fetch : decodeTableWord 16 0x0007 = some .decRead ∧ decodeTableWord 8 0x83 = some (.rspReadExc 0 0 0) := by
  decide

/-- `StepStopsOnlyOnBytesThatAreNoFrame`: both outcomes occur. -/
theorem witness_stops : (∃ t, step State.reset = .next t) ∧
    step (State.reset.setScript [.request []]) = .refused (.notAFrame "wrong length") := ⟨⟨_, rfl⟩, rfl⟩

/-- `StepTakesOneLine`. -/
theorem witness_oneLine : State.reset.script = [] ∧
    ∃ t, (State.reset.setScript [.wr 0x004 0xBEEF, .reset]).script = .wr 0x004 0xBEEF :: [.reset] ∧
      step (State.reset.setScript [.wr 0x004 0xBEEF, .reset]) = .next t := ⟨rfl, _, rfl, rfl⟩

/-- `PlainScriptsRunToTheirEnd`: one line of each kind. -/
theorem witness_plain : ∀ e ∈ [HostEvent.wr 0x000 0x0005, .reset, .rd 0x001],
    (∃ a, e = .rd a) ∨ (∃ a v, e = .wr a v) ∨ e = .reset := by
  intro e h
  simp only [List.mem_cons, List.not_mem_nil, or_false] at h
  rcases h with rfl | rfl | rfl
  · exact .inr (.inl ⟨_, _, rfl⟩)
  · exact .inr (.inr rfl)
  · exact .inl ⟨_, rfl⟩

/-- `EveryStepKeepsTheRegistersLegal`: a state with a frame in `TXBUF`, an exception in `EXC` and a line to serve. -/
theorem witness_legal : ∃ s t : State, RegistersLegal s ∧ s.txLen = 8 ∧ s.exc ≠ 0 ∧ step s = .next t :=
  ⟨{ State.reset with txLen := 8, txbuf := #v[0x00, 0x06, 0x00, 0x00, 0x00, 0x00, 0x88, 0x1B], status := 0x6, exc := 2,
                      script := [.wr 0x000 0x0008] }, _,
    ⟨by decide +kernel, .inr rfl, by decide +kernel, fun _ => by decide +kernel, fun _ => .inr rfl, fun _ => rfl⟩, rfl,
    by decide +kernel, rfl⟩

end Sys2Proof.Tests
end

section
/-! PROOFS. Who writes what (spec 10_state.md R27): what each of the eight commands, and each plain host write, can change. -/

namespace Sys2Proof.Machine

open Sys2Proof.Safety

/-! ### What a command can write, by family -/

/-- `ENC_READ`, failing or not, writes `TXBUF`, `TX_LEN` and `STATUS` only (41_encoder.md R85). -/
theorem encodeRead_writes (s : State) : ∃ frame len code,
    encodeRead s = { s with txbuf := frame, txLen := len, status := code } := by
  cases h : countLegal s
  · exact ⟨_, _, _, encodeRead_illegal s h⟩
  · exact ⟨_, _, _, encodeRead_legal s h⟩

/-- `DEC_READ` writes the decoder's registers and `STATUS` only, and `RESULT` only where it ends with `OK` (42_decoder.md R93,
R98). -/
theorem decodeRead_writes (s : State) : ∃ values count info code,
    decodeRead s = { s with result := values, resCount := count, exc := info, status := code } ∧
    (code ≠ 0x0 → values = s.result) := by
  rcases decodeRead_cases s with ⟨failure, -, h⟩ | ⟨-, h⟩
  · exact ⟨s.result, _, _, _, h, fun _ => rfl⟩
  · exact ⟨_, _, _, _, h, fun h => absurd rfl h⟩

/-- `DEC_WRITE` writes `RES_COUNT`, `EXC` and `STATUS` only, never `RESULT` (42_decoder.md R94, R98). -/
theorem decodeWrite_writes (s : State) : ∃ info code,
    decodeWrite s = { s with resCount := 0, exc := info, status := code } := by
  rcases decodeWrite_cases s with ⟨failure, -, h⟩ | ⟨-, h⟩
  · exact ⟨_, _, h⟩
  · exact ⟨_, _, h⟩

/-- The rows of R27 for the eight commands: each is of one family and writes that family's outputs and `STATUS` only. -/
theorem effect_of_isCommand {i : Instr} (hi : IsCommand i) (s : State) :
    ((i = .crcInit ∨ i = .crcByte ∨ i = .crcBuf) ∧ ∃ c, effect i s = { s with crc := c, status := 0x0 }) ∨
    (i = .crcCheck ∧ ∃ code, effect i s = { s with status := code }) ∨
    ((i = .encRead ∨ i = .encWrite) ∧ ∃ frame len code,
      effect i s = { s with txbuf := frame, txLen := len, status := code }) ∨
    (i = .decRead ∧ ∃ values count info code,
      effect i s = { s with result := values, resCount := count, exc := info, status := code } ∧
      (code ≠ 0x0 → values = s.result)) ∨
    (i = .decWrite ∧ ∃ info code, effect i s = { s with resCount := 0, exc := info, status := code }) := by
  obtain ⟨word, hw⟩ := hi
  cases i with
  | crcInit => exact .inl ⟨.inl rfl, _, rfl⟩
  | crcByte => exact .inl ⟨.inr (.inl rfl), _, rfl⟩
  | crcBuf => exact .inl ⟨.inr (.inr rfl), _, rfl⟩
  | crcCheck => exact .inr (.inl ⟨rfl, _, effect_crcCheck s⟩)
  | encRead => exact .inr (.inr (.inl ⟨.inl rfl, encodeRead_writes s⟩))
  | encWrite => exact .inr (.inr (.inl ⟨.inr rfl, _, _, _, encodeWrite_eq s⟩))
  | decRead => exact .inr (.inr (.inr (.inl ⟨rfl, decodeRead_writes s⟩)))
  | decWrite => exact .inr (.inr (.inr (.inr ⟨rfl, decodeWrite_writes s⟩)))
  | _ => nomatch hw

/-- What a command leaves to the other families (R27, every row but that of `STATUS`). -/
def KeepsOtherFamilies (i : Instr) (s t : State) : Prop :=
  (i ≠ .crcInit → i ≠ .crcByte → i ≠ .crcBuf → t.crc = s.crc) ∧
  (i ≠ .encRead → i ≠ .encWrite → SameEncoderOutputs s t) ∧
  (i ≠ .decRead → i ≠ .decWrite → t.exc = s.exc ∧ t.resCount = s.resCount) ∧
  (i ≠ .decRead ∨ t.status ≠ 0x0 → t.result = s.result) ∧
  SameHostInputs s t ∧ SameRunFields s t

theorem effect_keepsOtherFamilies {i : Instr} (hi : IsCommand i) (s : State) :
    KeepsOtherFamilies i s (effect i s) := by
  unfold KeepsOtherFamilies SameEncoderOutputs SameHostInputs SameRequest SameRunFields
  rcases effect_of_isCommand hi s with ⟨hf, c, he⟩ | ⟨rfl, code, he⟩ | ⟨hf, frame, len, code, he⟩ |
    ⟨rfl, values, count, info, code, he, hres⟩ | ⟨rfl, info, code, he⟩
  · rcases hf with rfl | rfl | rfl <;> simp [he]
  · simp [he]
  · rcases hf with rfl | rfl <;> simp [he]
  · simpa [he] using hres
  · simp [he]

/-! ### What a plain host write can write -/

/-- A host write reaches the registers of the host only (20_memory.md R38; R27, last row). -/
theorem writeReg_writes (r : Reg) (v : Word) (s : State) : ∃ unit addr count value data rxLen rxbuf,
    writeReg r v s = { s with
      unit := unit, addr := addr, count := count, value := value, data := data, rxLen := rxLen, rxbuf := rxbuf } := by
  cases r <;> exact ⟨_, _, _, _, _, _, _, rfl⟩

/-- No host write other than to `CMD` changes an output of the block (R27, R38). -/
theorem hostWrite_keepsOutputs {a : Index} (ha : a ≠ 0x000) (v : Word) (s : State) :
    ∃ t, hostWrite a v s = .next t ∧
      t.status = s.status ∧ t.crc = s.crc ∧ SameEncoderOutputs s t ∧ SameDecoderOutputs s t := by
  refine ⟨_, hostWrite_of_ne ha v s, ?_⟩
  obtain ⟨_, _, _, _, _, _, _, h⟩ := writeReg_writes (regAt a) v s
  rw [h]
  exact ⟨rfl, rfl, ⟨rfl, rfl⟩, rfl, rfl, rfl⟩

/-- A value that is no command's code, written to `CMD`, changes `STATUS` only (30_encoding.md R54). -/
theorem hostWrite_cmd_of_not_ok {v : Word} (hv : ∀ i, decode (.command v) ≠ .ok i) (s : State) :
    hostWrite 0x000 v s = .next { s with status := 0xF } := by
  cases hd : decodeCommand v with
  | ok i => exact absurd hd (hv i)
  | error why => rw [hostWrite_cmd, runCommand_error hd]

/-- Settles O22: the eight commands family by family, a reserved code, and the plain host writes. -/
theorem eachOutputHasOneFamilyOfWriters : Obligations.EachOutputHasOneFamilyOfWriters := by
  refine ⟨fun i s hi => ?_, fun v s hv => ?_, fun a v s ha => ?_⟩
  · exact ⟨effect i s, exec_eq i s, effect_keepsOtherFamilies hi s⟩
  · exact ⟨_, hostWrite_cmd_of_not_ok hv s, rfl, rfl, ⟨rfl, rfl⟩, ⟨rfl, rfl, rfl⟩,
      ⟨⟨rfl, rfl, rfl, rfl⟩, rfl, rfl, rfl⟩, rfl, rfl, rfl⟩
  · exact hostWrite_keepsOutputs ha v s

end Sys2Proof.Machine
end

section
/-! PROOFS. The register space (spec 20_memory.md R34 to R38): what a host read returns and what a host write leaves, register
by register. -/

namespace Sys2Proof.Machine

open Sys2Proof.Safety

/-! ### The map, from a register to its index -/

/-- `indexOf` gives each register of the map an index that names it (R34). -/
@[simp] theorem regAt_indexOf (r : Reg) : regAt (indexOf r) = r := by
  cases r with
  | txbuf i => exact regAt_txbuf i
  | rxbuf i => exact regAt_rxbuf i
  | result i => exact regAt_result i
  | _ => rfl

/-! ### A host read -/

theorem hostRead_indexOf (r : Reg) (s : State) : hostRead (indexOf r) s = readReg r s := by
  rw [hostRead, regAt_indexOf]

/-- A register that is read zero-extended is read as the number it holds (R37). -/
theorem hostRead_indexOf_toNat (r : Reg) {s : State} {n : Nat} {held : BitVec n} (hn : n ≤ 16)
    (hr : readReg r s = held.zeroExtend 16) : (hostRead (indexOf r) s).toNat = held.toNat := by
  rw [hostRead_indexOf, hr, zeroExtend_toNat hn]

theorem hostRead_reserved {a : Index} (ha : regAt a = .reserved) (s : State) : hostRead a s = 0x0000 := by
  rw [hostRead, ha, readReg]

/-- The values read so far are the run's, not the block's: no register shows them (log 1). -/
@[simp] theorem readReg_setReads (r : Reg) (vs : List Word) (s : State) : readReg r (s.setReads vs) = readReg r s := by
  cases r <;> rfl

/-- Serving a read writes no register and no buffer of the block, so every index reads as before (R37). -/
theorem serve_rd_keepsBlock (a : Index) (s : State) :
    ∃ t, serve (.rd a) s = .next t ∧ (∀ b, hostRead b t = hostRead b s) ∧
      SameHostInputs s t ∧ SameEncoderOutputs s t ∧ SameDecoderOutputs s t ∧ t.status = s.status ∧ t.crc = s.crc := by
  refine ⟨s.setReads (s.reads ++ [hostRead a s]), rfl, fun b => readReg_setReads (regAt b) _ s, ?_⟩
  exact ⟨⟨⟨rfl, rfl, rfl, rfl⟩, rfl, rfl, rfl⟩, ⟨rfl, rfl⟩, ⟨rfl, rfl, rfl⟩, rfl, rfl⟩

/-- Settles O17: each register of the map by its index, the reserved indices, and the read as a line of the script. -/
theorem hostReadReturnsTheRegisterZeroExtended : Obligations.HostReadReturnsTheRegisterZeroExtended := by
  intro s
  refine ⟨hostRead_indexOf .cmd s, ?status, ?exc, ?unit, hostRead_indexOf .addr s, hostRead_indexOf .count s,
    hostRead_indexOf .value s, ?data, hostRead_indexOf .crc s, ?txLen, ?rxLen, ?resCount, fun i => ?txbuf,
    fun i => ?rxbuf, fun i => hostRead_indexOf (.result i) s, fun a ha => hostRead_reserved (regAt_reserved a ha) s,
    fun a => serve_rd_keepsBlock a s⟩
  case status => exact hostRead_indexOf_toNat .status (by decide) rfl
  case exc => exact hostRead_indexOf_toNat .exc (by decide) rfl
  case unit => exact hostRead_indexOf_toNat .unit (by decide) rfl
  case data => exact hostRead_indexOf_toNat .data (by decide) rfl
  case txLen => exact hostRead_indexOf_toNat .txLen (by decide) rfl
  case rxLen => exact hostRead_indexOf_toNat .rxLen (by decide) rfl
  case resCount => exact hostRead_indexOf_toNat .resCount (by decide) rfl
  case txbuf => exact hostRead_indexOf_toNat (.txbuf i) (by decide) rfl
  case rxbuf => exact hostRead_indexOf_toNat (.rxbuf i) (by decide) rfl

/-! ### A host write -/

/-- The low byte in number form (R38: `v mod 256`). -/
theorem loByte_eq_ofNat_mod (v : Word) : loByte v = BitVec.ofNat 8 (v.toNat % 256) := by
  apply BitVec.eq_of_toNat_eq
  simp [loByte]

/-- A write to the index of any register but `CMD` is `writeReg` to that register (R38). -/
theorem hostWrite_indexOf (r : Reg) (hr : r ≠ .cmd) (v : Word) (s : State) :
    hostWrite (indexOf r) v s = .next (writeReg r v s) := by
  rw [hostWrite, regAt_indexOf, if_neg hr]

theorem hostWrite_reserved {a : Index} (ha : regAt a = .reserved) (v : Word) (s : State) :
    hostWrite a v s = .next s := by
  simp [hostWrite, ha, writeReg]

/-- Settles O19: each writable register by its index, `CMD` by what its word decodes to, then the ignored writes. -/
theorem hostWriteKeepsTheLowBits : Obligations.HostWriteKeepsTheLowBits := by
  intro s v
  rw [← loByte_eq_ofNat_mod]
  refine ⟨hostWrite_indexOf .unit nofun v s, hostWrite_indexOf .addr nofun v s, hostWrite_indexOf .count nofun v s,
    hostWrite_indexOf .value nofun v s, hostWrite_indexOf .data nofun v s, hostWrite_indexOf .rxLen nofun v s,
    fun i => hostWrite_indexOf (.rxbuf i) nofun v s, fun i hi => ?command, fun why hwhy => ?illegal,
    hostWrite_indexOf .status nofun v s, hostWrite_indexOf .exc nofun v s, hostWrite_indexOf .crc nofun v s,
    hostWrite_indexOf .txLen nofun v s, hostWrite_indexOf .resCount nofun v s,
    fun i => hostWrite_indexOf (.txbuf i) nofun v s, fun i => hostWrite_indexOf (.result i) nofun v s,
    fun a ha => hostWrite_reserved (regAt_reserved a ha) v s⟩
  case command => rw [hostWrite_cmd, runCommand_ok hi, exec_eq]
  case illegal => rw [hostWrite_cmd, runCommand_error hwhy]

end Sys2Proof.Machine
end

section
/-! PROOFS. Reserved command codes (spec 30_encoding.md R54, 60_exceptions.md R115): a write of one to `CMD` sets `STATUS` and
does nothing else. -/

namespace Sys2Proof.Machine

/-- Settles O16: the decoder refuses every reserved value, and a refused write to `CMD` changes `STATUS` only. -/
theorem reservedCodeSetsIllegalCommandOnly : Obligations.ReservedCodeSetsIllegalCommandOnly := by
  intro s v hv
  have hrefused : decodeCommand v = .error .reservedCommand := decodeCommand_reserved hv
  rw [hostWrite_cmd, runCommand_error hrefused]

end Sys2Proof.Machine
end

section
/-! PROOFS. The verifier (spec 40_crc.md R76) and the four CRC commands (R78 to R81): the code, the result, and everything else
unchanged. -/

namespace Sys2Proof.Machine

/-- Settles O4: a sequence of two bytes or more is a body and a trailer, and two words are equal when their numbers are. -/
theorem crcOkComparesTheTrailerLowByteFirst : Obligations.CrcOkComparesTheTrailerLowByteFirst := by
  intro s h
  obtain ⟨body, lo, hi, rfl⟩ := exists_trailer s h
  have htrailer : (joinBytes hi lo).toNat = lo.toNat + 256 * hi.toNat := by
    rw [joinBytes_toNat]
    omega
  rw [crcOk_append, beq_iff_eq, ← BitVec.toNat_inj, htrailer]
  simp

/-- Settles O10: the three outcomes of `CRC_CHECK`, each with the branch of the rule that gives its code. -/
theorem crcCheckVerifiesTheTrailer : Obligations.CrcCheckVerifiesTheTrailer := by
  intro s code
  refine ⟨rfl, ?_⟩
  rw [exec]
  rcases execCrcCheck_cases s with ⟨hshort, h⟩ | ⟨hlong, hwrong, h⟩ | ⟨hlong, hright, h⟩
  · have hcode : code = 0x2 := if_pos hshort
    rw [h, hcode]
  · have hcode : code = 0x3 := (if_neg hlong.not_gt).trans (if_neg (ne_true_of_eq_false hwrong))
    rw [h, hcode]
  · have hcode : code = 0x0 := (if_neg hlong.not_gt).trans (if_pos hright)
    rw [h, hcode]

/-! ### The commands that write `CRC` -/

/-- Each of `CRC_INIT`, `CRC_BYTE` and `CRC_BUF` ends so: a new `CRC`, `OK`, and nothing else (R78 to R80). -/
theorem succeed_setCrc (c : Word) (s : State) : succeed (s.setCrc c) = { s with crc := c, status := 0x0 } := rfl

/-- Settles O7: the new `CRC` is the start value. -/
theorem crcInitLoadsTheStartValue : Obligations.CrcInitLoadsTheStartValue := by
  refine fun s => ⟨rfl, ?_⟩
  rw [exec, execCrcInit, succeed_setCrc, Config.crcInitValue]

/-- Settles O8: the new `CRC` is one byte step from the old one. -/
theorem crcByteFeedsData : Obligations.CrcByteFeedsData := by
  refine fun s => ⟨rfl, ?_⟩
  rw [exec, execCrcByte, succeed_setCrc]

/-- Settles O9: the new `CRC` is that of the received sequence, the first `RX_LEN` entries of `RXBUF`. -/
theorem crcBufTakesTheReceivedBytes : Obligations.CrcBufTakesTheReceivedBytes := by
  refine fun s => ⟨rfl, ?_⟩
  rw [exec, execCrcBuf, succeed_setCrc, received]

end Sys2Proof.Machine
end

section
/-! PROOFS. The encoder (spec 41_encoder.md R85, R86): the code of each command, the eight bytes it builds, and everything else
unchanged. -/

namespace Sys2Proof.Machine

/-- The test of R85 in the form in which it fails. -/
theorem countLegal_eq_false_iff (s : State) : countLegal s = false ↔ s.count.toNat < 1 ∨ 125 < s.count.toNat := by
  rw [← Bool.not_eq_true, countLegal_iff]
  omega

/-- The eight bytes of a request frame, field by field: each word high byte first, the trailer low byte first (R85, R86). -/
theorem requestFrame_eq (unit function : Byte) (addr operand : Word) :
    requestFrame unit function addr operand =
      let c := crc16 [unit, function, addr.extractLsb' 8 8, addr.extractLsb' 0 8, operand.extractLsb' 8 8,
        operand.extractLsb' 0 8]
      #v[unit, function, addr.extractLsb' 8 8, addr.extractLsb' 0 8, operand.extractLsb' 8 8, operand.extractLsb' 0 8,
        c.extractLsb' 0 8, c.extractLsb' 8 8] := rfl

/-- Settles O11: the frame for a legal count, `InvalidArgument` for any other. -/
theorem encReadBuildsTheReadRequest : Obligations.EncReadBuildsTheReadRequest := by
  intro s c
  refine ⟨rfl, fun hmin hmax => ?legal, fun hout => ?illegal⟩
  case legal =>
    have hlegal : countLegal s = true := (countLegal_iff s).mpr ⟨hmin, hmax⟩
    rw [exec, execEncRead, encodeRead_legal s hlegal, requestFrame_eq, Config.fcRead]
  case illegal =>
    have hillegal : countLegal s = false := (countLegal_eq_false_iff s).mpr hout
    rw [exec, execEncRead, encodeRead_illegal s hillegal]

/-- Settles O12: no test, and the frame takes its last word from `VALUE`. -/
theorem encWriteBuildsTheWriteRequest : Obligations.EncWriteBuildsTheWriteRequest := by
  refine fun s => ⟨rfl, ?_⟩
  rw [exec, execEncWrite, encodeWrite_eq, requestFrame_eq, Config.fcWrite]

end Sys2Proof.Machine
end

section
/-! PROOFS. The decoder (spec 42_decoder.md R91 to R98): the tests of each command on the bytes, in order, what every outcome
leaves behind, and what the byte count cannot change. -/

namespace Sys2Proof.Machine

/-! ### The two commands through their tests -/

/-- `DEC_READ` raises the failure its tests find, or delivers the values (R93, R98). -/
theorem decodeRead_eq (s : State) : decodeRead s = (checkReadResponse s).elim
    { s with result := decodedResult s, resCount := loByte s.count, exc := 0x00, status := 0x0 }
    (raise .decoder · s) := by
  unfold decodeRead
  cases checkReadResponse s <;> rfl

/-- `DEC_WRITE` raises the failure its tests find, or acknowledges (R94, R98). -/
theorem decodeWrite_eq (s : State) : decodeWrite s = (checkWriteResponse s).elim
    { s with resCount := 0, exc := 0x00, status := 0x0 } (raise .decoder · s) := by
  unfold decodeWrite
  cases checkWriteResponse s <;> rfl

/-! ### The tests on the bytes -/

/-- Of the two bytes that match a function code, only the second has the exception marker (R64). -/
theorem marked_iff_eq_exception {function exception b : Byte} (hnormal : function.toNat < 0x80)
    (hmarked : 0x80 ≤ exception.toNat) (hb : b = function ∨ b = exception) : 0x80 ≤ b.toNat ↔ b = exception := by
  rcases hb with rfl | rfl
  · exact iff_of_false (by omega) (by rintro rfl; omega)
  · exact iff_of_true hmarked rfl

/-- The front end with byte 1 compared with the two values it may have: the function code, and the code with the exception
marker (R92, R64). -/
theorem decodeFront_eq_byteTests {function exception : Byte} (hnormal : function.toNat < 0x80)
    (hmarked : 0x80 ≤ exception.toNat) {s : State}
    (hbyte : sameFunction function s = true ↔ s.rxbuf[1] = function ∨ s.rxbuf[1] = exception)
    (normalLength : Nat) (mismatch : Failure) :
    decodeFront function normalLength mismatch s =
      if s.rxLen.toNat < 5 then some .shortFrame
      else if s.rxbuf[1].toNat < 0x80 ∧ s.rxLen.toNat < normalLength then some .shortFrame
      else if s.rxbuf[0] ≠ s.unit ∨ (s.rxbuf[1] ≠ function ∧ s.rxbuf[1] ≠ exception) then some mismatch
      else if crcOk (received s) = false then some .crcMismatch
      else if s.rxbuf[1] = exception then some (.modbusException s.rxbuf[2])
      else none := by
  have hother : sameFunction function s = false ↔ s.rxbuf[1] ≠ function ∧ s.rxbuf[1] ≠ exception := by
    rw [← Bool.not_eq_true, hbyte, not_or]
  rw [decodeFront_eq_tests]
  simp only [hother]
  by_cases hb : s.rxbuf[1] = function ∨ s.rxbuf[1] = exception
  · simp only [marked_iff_eq_exception hnormal hmarked hb]
  · have hmismatch : s.rxbuf[0] ≠ s.unit ∨ (s.rxbuf[1] ≠ function ∧ s.rxbuf[1] ≠ exception) := .inr (not_or.mp hb)
    simp only [if_pos hmismatch]

/-- The tests of `DEC_READ` in the order of R93 (and R104). -/
theorem checkReadResponse_eq_tests (s : State) : checkReadResponse s =
    if s.count.toNat < 1 ∨ 125 < s.count.toNat then some .invalidArgument
    else if s.rxLen.toNat < 5 then some .shortFrame
    else if s.rxbuf[1].toNat < 0x80 ∧ s.rxLen.toNat < 5 + 2 * s.count.toNat then some .shortFrame
    else if s.rxbuf[0] ≠ s.unit ∨ (s.rxbuf[1] ≠ 0x03 ∧ s.rxbuf[1] ≠ 0x83) then some .functionMismatch
    else if crcOk (received s) = false then some .crcMismatch
    else if s.rxbuf[1] = 0x83 then some (.modbusException s.rxbuf[2])
    else none := by
  unfold checkReadResponse
  cases hcount : countLegal s
  · exact (if_pos ((countLegal_eq_false_iff s).mp hcount)).symm
  · have hlegal : ¬ (s.count.toNat < 1 ∨ 125 < s.count.toNat) := by
      rw [← countLegal_eq_false_iff, hcount]
      decide
    rw [if_pos rfl, if_neg hlegal]
    exact decodeFront_eq_byteTests (by decide) (by decide) (sameFunction_read s) _ _

/-- `DEC_WRITE` reports what its front end finds, and compares the echo only where that finds nothing (R94). -/
theorem checkWriteResponse_eq (s : State) : checkWriteResponse s =
    (decodeFront Config.fcWrite Config.requestLength .unexpectedEcho s).elim
      (if echoMatches s = false then some .unexpectedEcho else none) some := by
  unfold checkWriteResponse
  cases decodeFront Config.fcWrite Config.requestLength .unexpectedEcho s with
  | some failure => rfl
  | none => cases echoMatches s <;> rfl

/-- Bytes 2 to 5 compared with the request as numbers (R94). -/
theorem echoMatches_eq_false_iff (s : State) : echoMatches s = false ↔
    s.rxbuf[2].toNat * 256 + s.rxbuf[3].toNat ≠ s.addr.toNat ∨
      s.rxbuf[4].toNat * 256 + s.rxbuf[5].toNat ≠ s.value.toNat := by
  have hfield (hi lo : Byte) (v : Word) : hi.toNat * 256 + lo.toNat = v.toNat ↔ hi = hiByte v ∧ lo = loByte v := by
    rw [← joinBytes_toNat, BitVec.toNat_inj, ← joinBytes_inj, joinBytes_hi_lo]
  rw [← Bool.not_eq_true, echoMatches_iff, ne_eq, ne_eq, hfield, hfield, ← not_and_or, and_assoc]

/-- The tests of `DEC_WRITE` in the order of R94 (and R104). -/
theorem checkWriteResponse_eq_tests (s : State) : checkWriteResponse s =
    if s.rxLen.toNat < 5 then some .shortFrame
    else if s.rxbuf[1].toNat < 0x80 ∧ s.rxLen.toNat < 8 then some .shortFrame
    else if s.rxbuf[0] ≠ s.unit ∨ (s.rxbuf[1] ≠ 0x06 ∧ s.rxbuf[1] ≠ 0x86) then some .unexpectedEcho
    else if crcOk (received s) = false then some .crcMismatch
    else if s.rxbuf[1] = 0x86 then some (.modbusException s.rxbuf[2])
    else if s.rxbuf[2].toNat * 256 + s.rxbuf[3].toNat ≠ s.addr.toNat ∨
      s.rxbuf[4].toNat * 256 + s.rxbuf[5].toNat ≠ s.value.toNat then some .unexpectedEcho
    else none := by
  have hfront := decodeFront_eq_byteTests (function := 0x06) (exception := 0x86) (by decide) (by decide)
    (sameFunction_write s) 8 .unexpectedEcho
  rw [checkWriteResponse_eq, Config.fcWrite, Config.requestLength, hfront]
  simp only [echoMatches_eq_false_iff]
  split_ifs <;> rfl

/-! ### The whole effect, on every state -/

theorem joinBytes_eq_ofNat (hi lo : Byte) : joinBytes hi lo = BitVec.ofNat 16 (hi.toNat * 256 + lo.toNat) := by
  rw [← joinBytes_toNat, BitVec.ofNat_toNat, BitVec.setWidth_eq]

/-- Settles O13: the tests in their order, each with what its failure writes; without a failure, the values. -/
theorem decReadDecodesTheReadResponse : Obligations.DecReadDecodesTheReadResponse := by
  intro s n k failed values
  have hvalues : decodedResult s = values := by
    ext i hi
    simp only [values, Vector.getElem_ofFn, decodedResult_getElem, joinBytes_eq_ofNat]
    rfl
  have hcount : loByte s.count = BitVec.ofNat 8 k := rfl
  have hreceived : received s = s.rxbuf.toList.take n := rfl
  refine ⟨rfl, ?_⟩
  rw [exec, execDecRead, decodeRead_eq, checkReadResponse_eq_tests, hvalues, hcount, hreceived]
  congr 1
  split_ifs <;> rfl

/-- Settles O14: the tests in their order, each with what its failure writes; without a failure, the acknowledgement. -/
theorem decWriteDecodesTheWriteResponse : Obligations.DecWriteDecodesTheWriteResponse := by
  intro s n failed
  have hreceived : received s = s.rxbuf.toList.take n := rfl
  refine ⟨rfl, ?_⟩
  rw [exec, execDecWrite, decodeWrite_eq, checkWriteResponse_eq_tests, hreceived]
  congr 1
  split_ifs <;> rfl

/-! ### What each outcome leaves behind -/

/-- The codes the front end can raise (R92). -/
theorem failureCode_of_decodeFront {function : Byte} {normalLength : Nat} {mismatch failure : Failure} {s : State}
    (h : decodeFront function normalLength mismatch s = some failure) :
    failureCode failure ∈ [0x2, failureCode mismatch, 0x3, 0x6] := by
  rcases decodeFront_eq_some h with ⟨rfl, -⟩ | ⟨-, -, ⟨rfl, -⟩ | ⟨-, -, ⟨rfl, -⟩ | ⟨rfl, -⟩⟩⟩ <;>
    simp [failureCode]

theorem failureCode_of_checkReadResponse {failure : Failure} {s : State} (h : checkReadResponse s = some failure) :
    failureCode failure ∈ [0x1, 0x2, 0x3, 0x4, 0x6] := by
  unfold checkReadResponse at h
  split at h
  · have hfront := failureCode_of_decodeFront h
    simp only [failureCode, List.mem_cons] at hfront ⊢
    tauto
  · cases h
    simp [failureCode]

theorem failureCode_of_checkWriteResponse {failure : Failure} {s : State} (h : checkWriteResponse s = some failure) :
    failureCode failure ∈ [0x2, 0x3, 0x5, 0x6] := by
  unfold checkWriteResponse at h
  split at h
  next front hf =>
    cases h
    have hfront := failureCode_of_decodeFront hf
    simp only [failureCode, List.mem_cons] at hfront ⊢
    tauto
  next =>
    split at h
    · cases h
    · cases h
      simp [failureCode]

theorem decodeRead_status_mem (s : State) : (decodeRead s).status ∈ [0x0, 0x1, 0x2, 0x3, 0x4, 0x6] := by
  rcases decodeRead_cases s with ⟨failure, hf, h⟩ | ⟨-, h⟩
  · rw [h]
    exact List.mem_cons_of_mem _ (failureCode_of_checkReadResponse hf)
  · rw [h]
    exact List.mem_cons_self

theorem decodeWrite_status_mem (s : State) : (decodeWrite s).status ∈ [0x0, 0x2, 0x3, 0x5, 0x6] := by
  rcases decodeWrite_cases s with ⟨failure, hf, h⟩ | ⟨-, h⟩
  · rw [h]
    exact List.mem_cons_of_mem _ (failureCode_of_checkWriteResponse hf)
  · rw [h]
    exact List.mem_cons_self

/-- `DEC_READ` ends with `OK` only where no test fails, the test of `COUNT` among them (R93). -/
theorem decodeRead_of_status_ok {s : State} (hok : (decodeRead s).status = 0x0) : countLegal s = true ∧
    decodeRead s = { s with result := decodedResult s, resCount := loByte s.count, exc := 0x00, status := 0x0 } := by
  rcases decodeRead_cases s with ⟨failure, -, h⟩ | ⟨hnone, h⟩
  · rw [h] at hok
    exact absurd hok (failureCode_ne_ok failure)
  · exact ⟨((checkReadResponse_eq_none_iff s).mp hnone).left, h⟩

/-- A failing `DEC_READ` writes the row of R98 for its status. -/
theorem decodeRead_of_status_ne_ok {s : State} (hne : (decodeRead s).status ≠ 0x0) :
    decodeRead s = { s with
      status := (decodeRead s).status, resCount := 0,
      exc := if (decodeRead s).status = 0x6 then s.rxbuf[2] else 0x00 } := by
  rcases decodeRead_cases s with ⟨failure, hf, h⟩ | ⟨-, h⟩
  · rw [h, failureInfo_of_checkReadResponse hf]
  · rw [h] at hne
    exact absurd rfl hne

/-- `DEC_WRITE`, failing or not, writes the row of R98 for its status. -/
theorem decodeWrite_eq_by_status (s : State) :
    decodeWrite s = { s with
      status := (decodeWrite s).status, resCount := 0,
      exc := if (decodeWrite s).status = 0x6 then s.rxbuf[2] else 0x00 } := by
  rcases decodeWrite_cases s with ⟨failure, hf, h⟩ | ⟨-, h⟩
  · rw [h, failureInfo_of_checkWriteResponse hf]
  · rw [h]
    rfl

/-- Settles O24: each row of the table from the lemma of its outcome; the rest is the frame of the command's family. -/
theorem decodeLeavesBehindByOutcome : Obligations.DecodeLeavesBehindByOutcome := by
  refine ⟨fun s => ?read, fun s => ?write⟩
  case read =>
    obtain ⟨hcrc, henc, -, -, hinputs, hrun⟩ := effect_keepsOtherFamilies (i := .decRead) ⟨_, rfl⟩ s
    refine ⟨decodeRead s, rfl, decodeRead_status_mem s, fun hok => ?ok, fun hexc => ?exception, fun hne hother => ?failed,
      hinputs, henc nofun nofun, hcrc nofun nofun nofun, hrun⟩
    case ok =>
      obtain ⟨hlegal, h⟩ := decodeRead_of_status_ok hok
      have hfits : s.count.toNat ≤ 255 := ((countLegal_iff s).mp hlegal).right.trans (by decide)
      rw [h]
      exact ⟨rfl, loByte_toNat_of_le s.count hfits, fun i => decodedResult_getElem s i i.isLt⟩
    case exception =>
      rw [decodeRead_of_status_ne_ok (ne_of_eq_of_ne hexc (by decide))]
      exact ⟨if_pos hexc, rfl, rfl⟩
    case failed =>
      rw [decodeRead_of_status_ne_ok hne]
      exact ⟨if_neg hother, rfl, rfl⟩
  case write =>
    obtain ⟨hcrc, henc, -, hresult, hinputs, hrun⟩ := effect_keepsOtherFamilies (i := .decWrite) ⟨_, rfl⟩ s
    have hexc := congrArg State.exc (decodeWrite_eq_by_status s)
    exact ⟨decodeWrite s, rfl, decodeWrite_status_mem s, congrArg State.resCount (decodeWrite_eq_by_status s),
      hresult (.inl nofun), fun h => hexc.trans (if_pos h), fun h => hexc.trans (if_neg h),
      hinputs, henc nofun nofun, hcrc nofun nofun nofun, hrun⟩

/-! ### Exception responses -/

/-- The front end on an exception response: the normal length is not asked for, and the code is passed on (R92, R95). -/
theorem decodeFront_of_exception {function : Byte} {s : State} (hlen : 5 ≤ s.rxLen.toNat) (hunit : s.rxbuf[0] = s.unit)
    (hcrc : crcOk (received s) = true) (hfunction : sameFunction function s = true) (hmarked : 0x80 ≤ s.rxbuf[1].toNat)
    (normalLength : Nat) (mismatch : Failure) :
    decodeFront function normalLength mismatch s = some (.modbusException s.rxbuf[2]) := by
  rw [decodeFront_eq_tests]
  simp [hlen.not_gt, hmarked.not_gt, hunit, hfunction, hcrc, hmarked]

/-- Settles O25: each command's tests find the exception, and the failure is raised with its code. -/
theorem exceptionResponseIsReported : Obligations.ExceptionResponseIsReported := by
  intro s hlen hunit hcrc
  refine ⟨fun hbyte hmin hmax => ?read, fun hbyte => ?write⟩
  case read =>
    have hfailure : checkReadResponse s = some (.modbusException s.rxbuf[2]) := by
      rw [checkReadResponse, if_pos ((countLegal_iff s).mpr ⟨hmin, hmax⟩)]
      exact decodeFront_of_exception hlen hunit hcrc ((sameFunction_read s).mpr (.inr hbyte)) (by rw [hbyte]; decide) _ _
    rw [exec, execDecRead, decodeRead_eq, hfailure, Option.elim_some]
    rfl
  case write =>
    have hfailure : checkWriteResponse s = some (.modbusException s.rxbuf[2]) := by
      rw [checkWriteResponse, decodeFront_of_exception hlen hunit hcrc ((sameFunction_write s).mpr (.inr hbyte))
        (by rw [hbyte]; decide)]
    rw [exec, execDecWrite, decodeWrite_eq, hfailure, Option.elim_some]
    rfl

/-! ### The byte count -/

/-- With byte 1 normal and the trailer right, what is left of the tests of `DEC_READ` reads `COUNT`, `RX_LEN` and byte 0: no
test reads byte 2 (R97). -/
theorem checkReadResponse_of_normal {s : State} (hbyte : s.rxbuf[1] = 0x03) (hcrc : crcOk (received s) = true) :
    checkReadResponse s =
      if s.count.toNat < 1 ∨ 125 < s.count.toNat then some .invalidArgument
      else if s.rxLen.toNat < 5 + 2 * s.count.toNat then some .shortFrame
      else if s.rxbuf[0] ≠ s.unit then some .functionMismatch
      else none := by
  rw [checkReadResponse_eq_tests]
  by_cases hshort : s.rxLen.toNat < 5
  · have hshort' : s.rxLen.toNat < 5 + 2 * s.count.toNat := by omega
    simp only [if_pos hshort, if_pos hshort']
  · simp [hshort, hbyte, hcrc]

/-- The values lie between byte 2 and the trailer, so two buffers that differ only there hold the same ones (R93, R97). -/
theorem decodedResult_setRxbuf {s : State} {other : Vector Byte 256} (hlong : 5 + 2 * s.count.toNat ≤ s.rxLen.toNat)
    (hsame : ∀ i : Fin 256, i.val ≠ 2 → i.val + 2 ≠ s.rxLen.toNat → i.val + 1 ≠ s.rxLen.toNat →
      other[i] = s.rxbuf[i]) :
    decodedResult (s.setRxbuf other) = decodedResult s := by
  ext k hk
  rw [decodedResult_getElem, decodedResult_getElem]
  by_cases hlt : k < s.count.toNat
  · have hhigh : other[3 + 2 * k] = s.rxbuf[3 + 2 * k] :=
      hsame ⟨3 + 2 * k, by omega⟩ (by simp only; omega) (by simp only; omega) (by simp only; omega)
    have hlow : other[4 + 2 * k] = s.rxbuf[4 + 2 * k] :=
      hsame ⟨4 + 2 * k, by omega⟩ (by simp only; omega) (by simp only; omega) (by simp only; omega)
    simp [hlt, hhigh, hlow]
  · simp [hlt]

/-- Settles O26: neither the tests nor the values change with byte 2 or the trailer. -/
theorem byteCountIsNotCompared : Obligations.ByteCountIsNotCompared := by
  intro s other hsame hbyte hbyte' hcrc hcrc'
  have htests := checkReadResponse_of_normal hbyte hcrc
  have hcheck : checkReadResponse (s.setRxbuf other) = checkReadResponse s := by
    rw [htests, checkReadResponse_of_normal (s := s.setRxbuf other) hbyte' hcrc']
    by_cases hlong : 5 + 2 * s.count.toNat ≤ s.rxLen.toNat
    · have hfirst : other[0] = s.rxbuf[0] := hsame 0 (by decide) (by simp; omega) (by simp; omega)
      simp [hfirst]
    · simp [Nat.not_le.mp hlong]
  refine ⟨decodeRead s, rfl, ?same, fun hunit hmin hmax hlong => ?ok⟩
  case same =>
    change Host.Outcome.next (decodeRead (s.setRxbuf other)) = .next ((decodeRead s).setRxbuf other)
    rw [decodeRead_eq, hcheck, decodeRead_eq]
    cases hs : checkReadResponse s with
    | some failure => rfl
    | none =>
      obtain ⟨-, hfront⟩ := (checkReadResponse_eq_none_iff s).mp hs
      obtain ⟨-, hlong, -⟩ := (decodeFront_eq_none_iff _ _ _ s).mp hfront
      simp only [Option.elim_none]
      rw [decodedResult_setRxbuf hlong hsame]
      rfl
  case ok =>
    have hnone : checkReadResponse s = none := by
      rw [htests]
      simp [hunit, hmax.not_gt, hlong.not_gt, Nat.ne_of_gt hmin]
    rw [decodeRead_eq, hnone, Option.elim_none]

end Sys2Proof.Machine
end

section
/-! PROOFS. Failing (spec 60_exceptions.md R105, R106): what `raise` writes for each family, and that a failing command writes
exactly that. -/

namespace Sys2Proof.Machine

/-! ### The operation `raise` -/

/-- The law of `raise` for a reserved value written to `CMD`, beside those of the other three families (R106). -/
theorem raise_command (f : Failure) (s : State) : raise .command f s = { s with status := failureCode f } := rfl

/-- Each row of R103's table holds the code and the information of its failure. -/
theorem failureCode_failureInfo_of_row {b : Byte} {f : Failure} {code : Nibble} {info : Byte}
    (hrow : (f, code, info) ∈ [(.invalidArgument, 0x1, 0x00), (.shortFrame, 0x2, 0x00), (.crcMismatch, 0x3, 0x00),
      (.functionMismatch, 0x4, 0x00), (.unexpectedEcho, 0x5, 0x00), (.modbusException b, 0x6, b),
      (.illegalCommand, 0xF, 0x00)]) :
    failureCode f = code ∧ failureInfo f = info := by
  simp only [List.mem_cons, Prod.mk.injEq, List.not_mem_nil, or_false] at hrow
  rcases hrow with ⟨rfl, rfl, rfl⟩ | ⟨rfl, rfl, rfl⟩ | ⟨rfl, rfl, rfl⟩ | ⟨rfl, rfl, rfl⟩ | ⟨rfl, rfl, rfl⟩ |
    ⟨rfl, rfl, rfl⟩ | ⟨rfl, rfl, rfl⟩ <;> exact ⟨rfl, rfl⟩

/-! ### The commands that can fail -/

/-- A failing `CRC_CHECK` has written `STATUS` only (R81, R106). -/
theorem execCrcCheck_of_status_ne_ok {s t : State} (h : execCrcCheck s = .next t) (hne : t.status ≠ 0x0) :
    t.status ∈ [0x2, 0x3] ∧ t = { s with status := t.status } := by
  rcases execCrcCheck_cases s with ⟨-, he⟩ | ⟨-, -, he⟩ | ⟨-, -, he⟩ <;> obtain rfl := Host.Outcome.next.inj (he.symm.trans h)
  · exact ⟨by simp, rfl⟩
  · exact ⟨by simp, rfl⟩
  · exact absurd rfl hne

/-- A failing `ENC_READ` has refused `COUNT`, and `TXBUF` stays (R85, R105). -/
theorem encodeRead_of_status_ne_ok {s : State} (hne : (encodeRead s).status ≠ 0x0) :
    encodeRead s = { s with status := 0x1, txLen := 0 } := by
  cases hcount : countLegal s with
  | false => exact encodeRead_illegal s hcount
  | true =>
    rw [encodeRead_legal s hcount] at hne
    exact absurd rfl hne

/-- Settles O23: `raise` family by family; then each command by its own lemma, a decoder's codes being those of its outcomes
without `OK`. -/
theorem failingCommandWritesExactlyItsFamilysRegisters :
    Obligations.FailingCommandWritesExactlyItsFamilysRegisters := by
  refine ⟨fun s b f code info hrow => ?raises, fun s t =>
    ⟨execCrcCheck_of_status_ne_ok, fun h hne => ?encRead, fun h hne => ?decRead, fun h hne => ?decWrite,
      fun v hv h => ?reserved⟩⟩
  case raises =>
    obtain ⟨rfl, rfl⟩ := failureCode_failureInfo_of_row hrow
    exact ⟨raise_checker f s, raise_encoder f s, raise_decoder f s, raise_command f s⟩
  case encRead =>
    cases h
    exact encodeRead_of_status_ne_ok hne
  case decRead =>
    cases h
    exact ⟨List.mem_of_ne_of_mem hne (decodeRead_status_mem s), decodeRead_of_status_ne_ok hne⟩
  case decWrite =>
    cases h
    exact ⟨List.mem_of_ne_of_mem hne (decodeWrite_status_mem s), decodeWrite_eq_by_status s⟩
  case reserved =>
    exact (Host.Outcome.next.inj ((hostWrite_cmd_of_not_ok hv s).symm.trans h)).symm

end Sys2Proof.Machine
end

section
/-! PROOFS. The state after reset (spec 70_reset_and_hazards.md R119, 10_state.md R31). -/

namespace Sys2Proof.Machine

/-- Settles O54: the first reset is number 0, and each scalar register after reset number `k` by its own law. -/
theorem resetLeavesTheStatedValues : Obligations.ResetLeavesTheStatedValues := by
  refine ⟨?first, fun k => ?scalars⟩
  case first => rfl
  case scalars =>
    exact ⟨State.resetAt_status k, State.resetAt_exc k, State.resetAt_unit k, State.resetAt_addr k,
      State.resetAt_count k, State.resetAt_value k, State.resetAt_data k, State.resetAt_crc k,
      State.resetAt_txLen k, State.resetAt_rxLen k, State.resetAt_resCount k⟩

end Sys2Proof.Machine
end

section
/-! PROOFS. Encodings (spec 30_encoding.md sections 2, 4, 5, 6 and 9): the layouts written out in bytes, and the decoder and
the encoder as inverses of each other. -/

namespace Sys2Proof

/-! ### The layouts in bytes -/

theorem frameBytes_reqRead (unit : Byte) (addr count crc : Word) : frameBytes (.reqRead unit addr count crc) =
    [unit, Config.fcRead, hiByte addr, loByte addr, hiByte count, loByte count, loByte crc, hiByte crc] := rfl

theorem frameBytes_reqWrite (unit : Byte) (addr value crc : Word) : frameBytes (.reqWrite unit addr value crc) =
    [unit, Config.fcWrite, hiByte addr, loByte addr, hiByte value, loByte value, loByte crc, hiByte crc] := rfl

theorem frameBytes_rspRead (unit byteCount : Byte) (regs : List Word) (crc : Word) :
    frameBytes (.rspRead unit byteCount regs crc) =
      unit :: Config.fcRead :: byteCount :: (wordsBytes regs ++ leBytes crc) := rfl

theorem frameBytes_rspWrite (unit : Byte) (addr value crc : Word) : frameBytes (.rspWrite unit addr value crc) =
    [unit, Config.fcWrite, hiByte addr, loByte addr, hiByte value, loByte value, loByte crc, hiByte crc] := rfl

theorem frameBytes_rspReadExc (unit code : Byte) (crc : Word) : frameBytes (.rspReadExc unit code crc) =
    [unit, Config.fcRead ||| Config.excBit, code, loByte crc, hiByte crc] := rfl

theorem frameBytes_rspWriteExc (unit code : Byte) (crc : Word) : frameBytes (.rspWriteExc unit code crc) =
    [unit, Config.fcWrite ||| Config.excBit, code, loByte crc, hiByte crc] := rfl

theorem fits_rspRead (unit byteCount : Byte) (regs : List Word) (crc : Word) :
    (Instr.rspRead unit byteCount regs crc).fits = true ↔
      Config.minCount ≤ regs.length ∧ regs.length ≤ Config.maxCount := decide_eq_true_iff

/-! ### Decoding an encoding -/

/-- The function code of a response picks its layout: the four codes differ (R62, R64). -/
theorem functionCodes_ne : Config.fcWrite ≠ Config.fcRead ∧ Config.fcRead ||| Config.excBit ≠ Config.fcRead ∧
    Config.fcRead ||| Config.excBit ≠ Config.fcWrite ∧ Config.fcWrite ||| Config.excBit ≠ Config.fcRead ∧
    Config.fcWrite ||| Config.excBit ≠ Config.fcWrite ∧
    Config.fcWrite ||| Config.excBit ≠ Config.fcRead ||| Config.excBit := by decide

theorem decodeResponse_fcRead (unit : Byte) (rest : List Byte) :
    decodeResponse (unit :: Config.fcRead :: rest) = decodeReadResponse unit rest := rfl

/-- A read response is read back whole: its payload by `readPayload`, its number of values by the test of R60. -/
theorem decode_encode_rspRead {unit byteCount : Byte} {regs : List Word} {crc : Word}
    (hfits : (Instr.rspRead unit byteCount regs crc).fits = true) :
    decode (encode (.rspRead unit byteCount regs crc)) = .ok (.rspRead unit byteCount regs crc) := by
  have hcount := (fits_rspRead unit byteCount regs crc).mp hfits
  rw [encode, decode, frameBytes_rspRead, decodeResponse_fcRead, decodeReadResponse, readPayload_wordsBytes]
  exact if_pos hcount

/-- Settles O38: a command's word is its own; a frame's bytes are split and joined again, field by field. -/
theorem decodeInvertsEncode : Obligations.DecodeInvertsEncode := by
  intro i hfits
  cases i with
  | reqRead unit addr count crc => simp [encode, decode, frameBytes_reqRead, decodeRequest]
  | reqWrite unit addr value crc => simp [encode, decode, frameBytes_reqWrite, decodeRequest, functionCodes_ne]
  | rspRead unit byteCount regs crc => exact decode_encode_rspRead hfits
  | rspWrite unit addr value crc =>
    simp [encode, decode, frameBytes_rspWrite, decodeResponse, decodeWriteResponse, functionCodes_ne]
  | rspReadExc unit code crc => simp [encode, decode, frameBytes_rspReadExc, decodeResponse, functionCodes_ne]
  | rspWriteExc unit code crc => simp [encode, decode, frameBytes_rspWriteExc, decodeResponse, functionCodes_ne]
  | _ => rfl

/-! ### Encoding what was decoded -/

/-- The code is the encoding of the row, and the row fits its layout. -/
def Encodes (i : Instr) (c : Code) : Prop := encode i = c ∧ i.fits = true

theorem encodes_of_decodeCommand {word : Word} {i : Instr} (h : decodeCommand word = .ok i) :
    Encodes i (.command word) := by
  rcases decodeCommand_eq_ok h with ⟨rfl, rfl⟩ | ⟨rfl, rfl⟩ | ⟨rfl, rfl⟩ | ⟨rfl, rfl⟩ | ⟨rfl, rfl⟩ | ⟨rfl, rfl⟩ |
    ⟨rfl, rfl⟩ | ⟨rfl, rfl⟩ <;> exact ⟨rfl, rfl⟩

theorem encodes_of_decodeRequest {bytes : List Byte} {i : Instr} (h : decodeRequest bytes = .ok i) :
    Encodes i (.request bytes) := by
  unfold decodeRequest at h
  split at h
  next unit function a1 a0 x1 x0 lo hi =>
    split_ifs at h with hread hwrite <;> cases h
    · simp [Encodes, Instr.fits, encode, frameBytes_reqRead, hread]
    · simp [Encodes, Instr.fits, encode, frameBytes_reqWrite, hwrite]
  next => cases h

theorem encodes_of_decodeReadResponse {unit : Byte} {rest : List Byte} {i : Instr}
    (h : decodeReadResponse unit rest = .ok i) : Encodes i (.response (unit :: Config.fcRead :: rest)) := by
  unfold decodeReadResponse at h
  split at h
  next => cases h
  next byteCount payload =>
    split at h
    next => cases h
    next regs crc hpayload =>
      split_ifs at h with hcount
      cases h
      refine ⟨?_, (fits_rspRead ..).mpr hcount⟩
      rw [encode, frameBytes_rspRead, ← wordsBytes_of_readPayload payload regs crc hpayload]

theorem encodes_of_decodeWriteResponse {unit : Byte} {rest : List Byte} {i : Instr}
    (h : decodeWriteResponse unit rest = .ok i) : Encodes i (.response (unit :: Config.fcWrite :: rest)) := by
  unfold decodeWriteResponse at h
  split at h
  next a1 a0 v1 v0 lo hi =>
    cases h
    simp [Encodes, Instr.fits, encode, frameBytes_rspWrite]
  next => cases h

theorem encodes_of_decodeResponse {bytes : List Byte} {i : Instr} (h : decodeResponse bytes = .ok i) :
    Encodes i (.response bytes) := by
  unfold decodeResponse at h
  split at h
  next unit function rest =>
    split_ifs at h with hread hwrite hreadExc hwriteExc
    · exact hread ▸ encodes_of_decodeReadResponse h
    · exact hwrite ▸ encodes_of_decodeWriteResponse h
    · split at h
      next code lo hi =>
        cases h
        simp [Encodes, Instr.fits, encode, frameBytes_rspReadExc, hreadExc]
      next => cases h
    · split at h
      next code lo hi =>
        cases h
        simp [Encodes, Instr.fits, encode, frameBytes_rspWriteExc, hwriteExc]
      next => cases h
  next => cases h

/-- Settles O39: each kind of code by the inversion of its decoder. -/
theorem encodeInvertsDecode : Obligations.EncodeInvertsDecode := by
  intro c i h
  cases c with
  | command word => exact encodes_of_decodeCommand h
  | request bytes => exact encodes_of_decodeRequest h
  | response bytes => exact encodes_of_decodeResponse h

/-! ### The command words -/

/-- Settles O15: a word that decodes is in the range, and each word of the range is a command's. -/
theorem exactlyEightWordsAreCommands : Obligations.ExactlyEightWordsAreCommands := by
  refine fun w => ⟨fun ⟨i, hi⟩ => code_range_of_decodeCommand hi, fun ⟨hmin, hmax⟩ => ?_⟩
  have hword : w = 1 ∨ w = 2 ∨ w = 3 ∨ w = 4 ∨ w = 5 ∨ w = 6 ∨ w = 7 ∨ w = 8 := by bv_omega
  rcases hword with rfl | rfl | rfl | rfl | rfl | rfl | rfl | rfl <;> exact ⟨_, rfl⟩

/-! ### Fields and bytes -/

theorem hiByte_toNat (v : Word) : (hiByte v).toNat = v.toNat / 256 := by
  have hv := v.isLt
  simp only [hiByte, BitVec.extractLsb'_toNat, Nat.shiftRight_eq_div_pow]
  omega

theorem loByte_toNat (v : Word) : (loByte v).toNat = v.toNat % 256 := by simp [loByte]

/-- Settles O6: the number forms of joining and splitting, then the layouts, which are written with them. -/
theorem fieldsAreSplitAndAssembled : Obligations.FieldsAreSplitAndAssembled := by
  refine ⟨fun hi lo => ⟨joinBytes_toNat hi lo, hiByte_joinBytes hi lo, loByte_joinBytes hi lo⟩,
    fun v => ⟨hiByte_toNat v, loByte_toNat v, joinBytes_hi_lo v⟩, ?body, ?words, ?frame, ?trailer⟩
  case body => exact fun _ _ _ _ => rfl
  case words => exact fun _ _ => rfl
  case frame => exact fun i crc h => frameBytes_eq h
  case trailer => exact fun _ => rfl

/-! ### Patterns of a whole frame -/

/-- The last byte of a pattern is its lowest eight bits; the bytes before it are those of the pattern without them (R71). -/
theorem bytesOfNat_mul_add (n w : Nat) (b : Byte) : bytesOfNat (n + 1) (w * 256 + b.toNat) = bytesOfNat n w ++ [b] := by
  have hb := b.isLt
  induction n with
  | zero =>
    have hlow : BitVec.ofNat 8 (w * 256 + b.toNat) = b := by
      apply BitVec.eq_of_toNat_eq
      rw [BitVec.toNat_ofNat]
      omega
    simp [bytesOfNat, hlow]
  | succ n ih =>
    have hhigh : (w * 256 + b.toNat) / 256 ^ (n + 1) = w / 256 ^ n := by
      rw [pow_succ', ← Nat.div_div_eq_div_mul]
      congr 1
      omega
    rw [bytesOfNat, hhigh, ih, bytesOfNat, List.cons_append]

theorem bytesOfNat_append_byte {m : Nat} (n : Nat) (x : BitVec m) (b : Byte) :
    bytesOfNat (n + 1) (x ++ b).toNat = bytesOfNat n x.toNat ++ [b] := by
  rw [← bytesOfNat_mul_add, BitVec.toNat_append, ← Nat.shiftLeft_add_eq_or_of_lt b.isLt, Nat.shiftLeft_eq]

theorem bytesOfNat_append_word {m : Nat} (n : Nat) (x : BitVec m) (v : Word) :
    bytesOfNat (n + 2) (x ++ v).toNat = bytesOfNat n x.toNat ++ [hiByte v, loByte v] := by
  have hsplit : (x ++ v).toNat = (x.toNat * 256 + (hiByte v).toNat) * 256 + (loByte v).toNat := by
    rw [BitVec.toNat_append, ← Nat.shiftLeft_add_eq_or_of_lt v.isLt, Nat.shiftLeft_eq, hiByte_toNat, loByte_toNat]
    omega
  rw [hsplit, bytesOfNat_mul_add, bytesOfNat_mul_add, List.append_assoc, List.cons_append, List.nil_append]

theorem bytesOfNat_one (b : Byte) : bytesOfNat 1 b.toNat = [b] := by simp [bytesOfNat]

theorem bytesOfNat_request (unit function lo hi : Byte) (addr operand : Word) :
    bytesOfNat 8 (unit ++ function ++ addr ++ operand ++ lo ++ hi).toNat =
      [unit, function, hiByte addr, loByte addr, hiByte operand, loByte operand, lo, hi] := by
  rw [bytesOfNat_append_byte, bytesOfNat_append_byte, bytesOfNat_append_word, bytesOfNat_append_word,
    bytesOfNat_append_byte, bytesOfNat_one]
  rfl

theorem bytesOfNat_exception (unit function code lo hi : Byte) :
    bytesOfNat 5 (unit ++ function ++ code ++ lo ++ hi).toNat = [unit, function, code, lo, hi] := by
  rw [bytesOfNat_append_byte, bytesOfNat_append_byte, bytesOfNat_append_byte, bytesOfNat_append_byte, bytesOfNat_one]
  rfl

/-- A pattern that holds the encoding of a row is read as that row (R71; log 6). -/
theorem decodeTableWord_of_encode {nbits w : Nat} {i : Instr} (hfits : i.fits = true) (h : tableCode nbits w = encode i) :
    decodeTableWord nbits w = some i := by
  rw [decodeTableWord, h, decodeInvertsEncode i hfits]

/-- Settles O59: each pattern holds the bytes of its row's encoding. -/
theorem framePatternsAreReadByteZeroLeftmost : Obligations.FramePatternsAreReadByteZeroLeftmost := by
  refine fun unit code lo hi addr operand => ⟨decodeTableWord_of_encode rfl ?reqRead,
    decodeTableWord_of_encode rfl ?reqWrite, decodeTableWord_of_encode rfl ?readExc,
    decodeTableWord_of_encode rfl ?writeExc⟩
  case reqRead =>
    change Code.request (bytesOfNat 8 _) = _
    rw [bytesOfNat_request, encode, frameBytes_reqRead, loByte_joinBytes, hiByte_joinBytes, Config.fcRead]
  case reqWrite =>
    change Code.request (bytesOfNat 8 _) = _
    rw [bytesOfNat_request, encode, frameBytes_reqWrite, loByte_joinBytes, hiByte_joinBytes, Config.fcWrite]
  case readExc =>
    change Code.response (bytesOfNat 5 _) = _
    rw [bytesOfNat_exception, encode, frameBytes_rspReadExc, loByte_joinBytes, hiByte_joinBytes]
    rfl
  case writeExc =>
    change Code.response (bytesOfNat 5 _) = _
    rw [bytesOfNat_exception, encode, frameBytes_rspWriteExc, loByte_joinBytes, hiByte_joinBytes]
    rfl

/-- Settles O40: three command words, and three frames by the rows whose encodings they are. -/
theorem writtenOutCodesDecode : Obligations.WrittenOutCodesDecode := by
  refine ⟨rfl, rfl, rfl, ?reqRead, ?rspRead, ?rspReadExc⟩
  case reqRead => exact decodeInvertsEncode (.reqRead 0x01 0x0010 0x0002 0xCEC5) rfl
  case rspRead => exact decodeInvertsEncode (.rspRead 0x01 0x04 [0x002A, 0x002B] 0xE49B) rfl
  case rspReadExc => exact decodeInvertsEncode (.rspReadExc 0x01 0x02 0xF1C0) rfl

end Sys2Proof
end

section
/-! PROOFS. The generator (spec 40_crc.md R73 to R75) and the residue law (R77). -/

namespace Sys2Proof

/-! ### One bit, one byte, one sequence -/

/-- The bit shifted out is the parity of the register (R73). -/
theorem getLsbD_zero_iff (c : Word) : c.getLsbD 0 = true ↔ c.toNat % 2 = 1 := by
  simp [BitVec.getLsbD, Nat.testBit_zero]

/-- Settles O1: both branches of the bit step in number form. -/
theorem crcBitShiftsRightAndFoldsTheConstant : Obligations.CrcBitShiftsRightAndFoldsTheConstant := by
  intro c
  have hshift : (c >>> 1).toNat = c.toNat / 2 := by simp [Nat.shiftRight_eq_div_pow]
  unfold crcBit
  simp only [getLsbD_zero_iff]
  split_ifs
  · rw [BitVec.toNat_xor, hshift]
    rfl
  · exact hshift

/-- Settles O2: the loop of the byte step written out. -/
theorem crcByteIsEightBitSteps : Obligations.CrcByteIsEightBitSteps := fun _ _ => rfl

/-- Settles O3: the generator over an appended byte is one byte step more. -/
theorem crc16FeedsBytesInOrder : Obligations.Crc16FeedsBytesInOrder :=
  ⟨rfl, fun s b => crc16_append s [b]⟩

/-! ### The residue law -/

/-- Eight bit steps lose nothing: they are linear and only zero goes to zero. -/
theorem crcSteps_inj {x y : Word} : crcSteps x = crcSteps y ↔ x = y := by
  rw [← BitVec.xor_eq_zero_iff, ← crcSteps_xor]
  exact (crcSteps_eq_zero_iff (x ^^^ y)).trans BitVec.xor_eq_zero_iff

theorem crcByte_left_inj {c d : Word} {b : Byte} : crcByte c b = crcByte d b ↔ c = d := by
  rw [crcByte_eq, crcByte_eq, crcSteps_inj, BitVec.xor_left_inj]

/-- Two more bytes bring the register to zero exactly when they are the register's own, low byte first (R77). -/
theorem crcFrom_pair_eq_zero_iff (c : Word) (lo hi : Byte) : crcFrom c [lo, hi] = 0 ↔ c = joinBytes hi lo := by
  have hown : crcByte (joinBytes hi lo) lo = hi.zeroExtend 16 := by
    have h := crcByte_loByte (joinBytes hi lo)
    rwa [loByte_joinBytes, hiByte_joinBytes] at h
  rw [crcFrom_cons, crcFrom_cons, crcFrom_nil, ← crcByte_self hi, crcByte_left_inj, ← hown, crcByte_left_inj]

/-- The verifier is the test of the residue for zero (R77). -/
theorem crcOk_iff_residue {s : List Byte} (h : 2 ≤ s.length) : crcOk s = true ↔ crc16 s = 0 := by
  obtain ⟨body, lo, hi, rfl⟩ := exists_trailer s h
  rw [crcOk_append, beq_iff_eq, crc16_append, crcFrom_pair_eq_zero_iff]

theorem crc16_withTrailer (body : List Byte) : crc16 (withTrailer body) = 0 := by
  rw [← crcOk_iff_residue (by simp [withTrailer, leBytes])]
  exact crcOk_withTrailer body

/-- Settles O5: the residue of a completed sequence, and the verifier as its test. -/
theorem residueLaw : Obligations.ResidueLaw :=
  ⟨crc16_withTrailer, fun _ h => crcOk_iff_residue h⟩

/-- Zero bytes after a right trailer leave the residue at zero, so the verifier still accepts (42_decoder.md R96). -/
theorem crcOk_append_zeros {s : List Byte} (h : 2 ≤ s.length) (hok : crcOk s = true) (k : Nat) :
    crcOk (s ++ List.replicate k 0) = true := by
  rw [crcOk_iff_residue (by simp; omega), crc16_append, (crcOk_iff_residue h).mp hok, crcFrom_zero_replicate]

/-- A body has one right trailer: two accepted sequences with the same body are the same (R76). -/
theorem eq_of_crcOk {a b : List Byte} (ha : 2 ≤ a.length) (hlen : a.length = b.length)
    (hbody : a.take (a.length - 2) = b.take (a.length - 2)) (hoka : crcOk a = true) (hokb : crcOk b = true) : a = b := by
  obtain ⟨body, lo, hi, rfl⟩ := exists_trailer a ha
  obtain ⟨body', lo', hi', rfl⟩ := exists_trailer b (by omega)
  have hlen' : body.length = body'.length := by simpa using hlen
  have hsame : body = body' := by simpa [hlen'] using hbody
  subst hsame
  rw [crcOk_append, beq_iff_eq] at hoka hokb
  obtain ⟨rfl, rfl⟩ := joinBytes_inj.mp (hoka.symm.trans hokb)
  rfl

end Sys2Proof
end

section
/-! PROOFS. Script lines, the step and the run (spec 20_memory.md R37 to R46, 70_reset_and_hazards.md R132, R133). -/

namespace Sys2Proof.Machine

open Sys2Proof.Safety

/-! ### What a script line does, on every state -/

theorem refuseFrame_eq (why : DecodeError) : ∃ name, refuseFrame why = .refused (.notAFrame name) := by
  cases why <;> exact ⟨_, rfl⟩

/-- A line that presents a frame runs it, or is refused on every state alike. -/
theorem serve_frame_cases {c : Code} {e : HostEvent} (hserve : ∀ s, serve e s = runFrame c s) :
    (∃ i, decode c = .ok i ∧ ∀ s, serve e s = .next (effect i s)) ∨
    ((∀ i, decode c ≠ .ok i) ∧ ∃ why, ∀ s, serve e s = .refused (.notAFrame why)) := by
  cases hd : decode c with
  | ok i => exact .inl ⟨i, rfl, fun s => (hserve s).trans (runFrame_ok hd s)⟩
  | error why =>
    obtain ⟨name, hname⟩ := refuseFrame_eq why
    refine .inr ⟨nofun, name, fun s => ?_⟩
    rw [hserve, runFrame, hd, ← hname]

/-- All that a script line can do: record a read, run an instruction, be an illegal command, write a register, reset the
block, or be refused as no frame. Which of these it is depends on the line alone. -/
theorem serve_cases (e : HostEvent) :
    (∃ a, e = .rd a ∧ ∀ s, serve e s = .next (s.setReads (s.reads ++ [hostRead a s]))) ∨
    (∃ c i, e = eventOf c ∧ decode c = .ok i ∧ ∀ s, serve e s = .next (effect i s)) ∨
    (∃ v, e = .wr 0x000 v ∧ ∀ s, serve e s = .next (s.setStatus 0xF)) ∨
    (∃ a v, e = .wr a v ∧ ∀ s, serve e s = .next (writeReg (regAt a) v s)) ∨
    (e = .reset ∧ ∀ s, serve e s = .next (resetEvent s)) ∨
    (∃ c, e = eventOf c ∧ (∀ word, c ≠ .command word) ∧ (∀ i, decode c ≠ .ok i) ∧
      ∃ why, ∀ s, serve e s = .refused (.notAFrame why)) := by
  cases e with
  | rd a => exact .inl ⟨a, rfl, fun s => rfl⟩
  | wr a v =>
    by_cases ha : a = 0x000
    · subst ha
      cases hd : decodeCommand v with
      | ok i => exact .inr (.inl ⟨.command v, i, rfl, hd, fun s => runCommand_ok hd s⟩)
      | error why => exact .inr (.inr (.inl ⟨v, rfl, fun s => runCommand_error hd s⟩))
    · exact .inr (.inr (.inr (.inl ⟨a, v, rfl, fun s => hostWrite_of_ne ha v s⟩)))
  | reset => exact .inr (.inr (.inr (.inr (.inl ⟨rfl, fun s => rfl⟩))))
  | request bytes =>
    rcases serve_frame_cases (c := .request bytes) (e := .request bytes) (fun _ => rfl) with ⟨i, hd, h⟩ | ⟨hd, h⟩
    · exact .inr (.inl ⟨_, i, rfl, hd, h⟩)
    · exact .inr (.inr (.inr (.inr (.inr ⟨.request bytes, rfl, nofun, hd, h⟩))))
  | response bytes =>
    rcases serve_frame_cases (c := .response bytes) (e := .response bytes) (fun _ => rfl) with ⟨i, hd, h⟩ | ⟨hd, h⟩
    · exact .inr (.inl ⟨_, i, rfl, hd, h⟩)
    · exact .inr (.inr (.inr (.inr (.inr ⟨.response bytes, rfl, nofun, hd, h⟩))))

/-! ### A script line and the script behind it -/

theorem writeReg_setScript (r : Reg) (v : Word) (s : State) (x : List HostEvent) :
    writeReg r v (s.setScript x) = (writeReg r v s).setScript x := by
  cases r <;> rfl

theorem writeReg_reads (r : Reg) (v : Word) (s : State) : (writeReg r v s).reads = s.reads := by
  cases r <;> rfl

theorem readReg_setScript (r : Reg) (x : List HostEvent) (s : State) : readReg r (s.setScript x) = readReg r s := by
  cases r <;> rfl

/-- A line is refused on every state, or makes of every state a next one and neither reads nor writes the script behind
it. -/
theorem serve_next_or_refused (e : HostEvent) :
    (∃ f : State → State, (∀ s, serve e s = .next (f s)) ∧ ∀ s x, f (s.setScript x) = (f s).setScript x) ∨
    (∃ c, e = eventOf c ∧ (∀ word, c ≠ .command word) ∧ (∀ i, decode c ≠ .ok i) ∧
      ∃ why, ∀ s, serve e s = .refused (.notAFrame why)) := by
  rcases serve_cases e with ⟨a, -, h⟩ | ⟨c, i, -, -, h⟩ | ⟨v, -, h⟩ | ⟨a, v, -, h⟩ | ⟨-, h⟩ | hrefused
  · refine .inl ⟨_, h, fun s x => ?_⟩
    rw [hostRead, readReg_setScript]
    rfl
  · exact .inl ⟨_, h, effect_setScript i⟩
  · exact .inl ⟨_, h, fun s x => rfl⟩
  · exact .inl ⟨_, h, writeReg_setScript (regAt a) v⟩
  · exact .inl ⟨_, h, fun s x => rfl⟩
  · exact .inr hrefused

theorem serve_script {e : HostEvent} {s t : State} (h : serve e s = .next t) : t.script = s.script := by
  rcases serve_next_or_refused e with ⟨f, hf, hscript⟩ | ⟨-, -, -, -, why, hwhy⟩
  · obtain rfl := Host.Outcome.next.inj ((hf s).symm.trans h)
    have hkeep := congrArg State.script (hscript s s.script)
    rwa [show s.setScript s.script = s from rfl, State.setScript_script] at hkeep
  · exact nomatch (hwhy s).symm.trans h

/-! ### The step -/

theorem step_eventOf {s : State} {c : Code} {i : Instr} {rest : List HostEvent} (hd : decode c = .ok i)
    (hscript : s.script = eventOf c :: rest) : step s = exec i (s.setScript rest) := by
  rw [step_cons hscript, serve_eventOf hd, exec_eq]

/-- Settles O48: the line is taken off, and its code decodes to the instruction. -/
theorem stepRunsTheDecodedInstruction : Obligations.StepRunsTheDecodedInstruction :=
  fun _ _ _ _ hd hscript => step_eventOf hd hscript

theorem decode_of_decodeTableWord {nbits w : Nat} {i : Instr} (h : decodeTableWord nbits w = some i) :
    decode (tableCode nbits w) = .ok i := by
  unfold decodeTableWord at h
  split at h
  next j hj =>
    cases h
    exact hj
  next => cases h

/-- Settles O49: the placed line is the next one, and behind it stands the script as it was. -/
theorem fetchWordIsRunNext : Obligations.FetchWordIsRunNext := by
  intro s nbits w i h
  exact step_eventOf (s := s.withFetchWord nbits w) (decode_of_decodeTableWord h) rfl

/-- Settles O50: an empty script idles, and a line is served or refused. -/
theorem stepStopsOnlyOnBytesThatAreNoFrame : Obligations.StepStopsOnlyOnBytesThatAreNoFrame := by
  intro s
  cases hs : s.script with
  | nil => exact .inl ⟨s, step_nil hs⟩
  | cons e rest =>
    rw [step_cons hs]
    rcases serve_next_or_refused e with ⟨f, hf, -⟩ | ⟨c, rfl, hframe, hd, why, hwhy⟩
    · exact .inl ⟨_, hf _⟩
    · exact .inr ⟨c, rest, why, rfl, hd, hframe, hwhy _⟩

/-- Settles O51: the line is taken off before it is served, and no line touches the script behind it. -/
theorem stepTakesOneLine : Obligations.StepTakesOneLine := by
  refine ⟨fun s hs => step_nil hs, fun s t e rest hs ht => ?_⟩
  rw [step_cons hs] at ht
  exact serve_script ht

/-! ### The run -/

/-- One more step of the machine, from its first step on. -/
theorem core_run_succ_next {s t : State} (h : step s = .next t) (k : Nat) :
    Sys2Proof.core.run (k + 1) s = Sys2Proof.core.run k t := by
  have hstep : Sys2Proof.core.step s = .next t := h
  simp [Host.Core.run, hstep]

theorem core_run_succ_refused {s : State} {r : Refusal} (h : step s = .refused r) (k : Nat) :
    Sys2Proof.core.run (k + 1) s = .refused r := by
  have hstep : Sys2Proof.core.step s = .refused r := h
  simp [Host.Core.run, hstep]

/-- Settles O52, by induction on the lines: a line served with the rest still in the script is the same line served alone. -/
theorem runOfTheMachineIsItsScript : Obligations.RunOfTheMachineIsItsScript := by
  intro lines
  induction lines with
  | nil => exact fun s => rfl
  | cons e rest ih =>
    intro s
    have hstep : step (s.setScript (e :: rest)) = serve e ((s.setScript []).setScript rest) := step_cons rfl
    rcases serve_next_or_refused e with ⟨f, hf, hscript⟩ | ⟨-, -, -, -, why, hwhy⟩
    · rw [hf, hscript] at hstep
      have hempty : (f (s.setScript [])).setScript [] = f (s.setScript []) := (hscript (s.setScript []) []).symm
      have hrest : Sys2Proof.core.run rest.length ((f (s.setScript [])).setScript rest) =
          runLines rest (f (s.setScript [])) :=
        (ih (f (s.setScript []))).trans (congrArg (runLines rest) hempty)
      have hlines : runLines (e :: rest) (s.setScript []) = runLines rest (f (s.setScript [])) :=
        runLines_cons_next (hf (s.setScript [])) rest
      exact (core_run_succ_next hstep rest.length).trans (hrest.trans hlines.symm)
    · rw [hwhy] at hstep
      have hrun : runLines (e :: rest) (s.setScript []) = .refused (.notAFrame why) := by rw [runLines, hwhy]
      exact (core_run_succ_refused hstep rest.length).trans hrun.symm

/-! ### Plain scripts -/

/-- A host access or a reset: a line of the spec's own, not a pseudo-line of the model's (log 4). -/
def IsPlain (e : HostEvent) : Prop := (∃ a, e = .rd a) ∨ (∃ a v, e = .wr a v) ∨ e = .reset

/-- The line is a read: it yields one value (R133). -/
def isRead : HostEvent → Bool
  | .rd _ => true
  | _ => false

theorem isCommand_of_decode {word : Word} {i : Instr} (h : decode (.command word) = .ok i) : IsCommand i :=
  ⟨word, (encodeInvertsDecode _ _ h).left⟩

theorem effect_reads_of_isCommand {i : Instr} (hi : IsCommand i) (s : State) : (effect i s).reads = s.reads := by
  obtain ⟨-, -, -, -, -, -, hreads, -⟩ := effect_keepsOtherFamilies hi s
  exact hreads.symm

/-- A plain line is always served; a read adds one value to those read, any other line none (R133). -/
theorem serve_plain {e : HostEvent} (he : IsPlain e) (s : State) : ∃ t, serve e s = .next t ∧
    t.reads.length = s.reads.length + ([e].filter isRead).length := by
  rcases he with ⟨a, rfl⟩ | ⟨a, v, rfl⟩ | rfl
  · exact ⟨_, rfl, List.length_append⟩
  · by_cases ha : a = 0x000
    · subst ha
      cases hd : decodeCommand v with
      | ok i => exact ⟨_, runCommand_ok hd s, congrArg List.length (effect_reads_of_isCommand (isCommand_of_decode hd) s)⟩
      | error why => exact ⟨_, runCommand_error hd s, rfl⟩
    · exact ⟨_, hostWrite_of_ne ha v s, congrArg List.length (writeReg_reads (regAt a) v s)⟩
  · exact ⟨_, rfl, rfl⟩

theorem runLines_plain {lines : List HostEvent} (hplain : ∀ e ∈ lines, IsPlain e) (s : State) :
    ∃ t, runLines lines s = .next t ∧ t.reads.length = s.reads.length + (lines.filter isRead).length := by
  induction lines generalizing s with
  | nil => exact ⟨s, rfl, rfl⟩
  | cons e rest ih =>
    obtain ⟨he, hrest⟩ := List.forall_mem_cons.mp hplain
    obtain ⟨t, ht, hreads⟩ := serve_plain he s
    obtain ⟨u, hu, hreads'⟩ := ih hrest t
    refine ⟨u, (runLines_cons_next ht rest).trans hu, ?_⟩
    rw [hreads', hreads, Nat.add_assoc, ← List.length_append, ← List.filter_append, List.singleton_append]

/-- Settles O53: the lines are plain, and those it counts are the reads. -/
theorem plainScriptsRunToTheirEnd : Obligations.PlainScriptsRunToTheirEnd :=
  fun _ s hplain => runLines_plain hplain s

/-! ### Single accesses -/

/-- A write of a command's code to `CMD`, as a line of the script (R39). -/
theorem serve_command {word : Word} {i : Instr} (h : decodeCommand word = .ok i) (s : State) :
    serve (.wr 0x000 word) s = .next (effect i s) := runCommand_ok h s

/-- Settles O18: the read is served as the model's `serve` says. -/
theorem hostReadIsRecorded : Obligations.HostReadIsRecorded := fun _ _ => rfl

/-- Settles O55: the reset event by its definition. -/
theorem resetEventForgetsTheState : Obligations.ResetEventForgetsTheState := fun _ => ⟨_, rfl, rfl⟩

/-- Settles O20: two indices name different registers, or the written one is reserved and nothing is written. -/
theorem hostWriteLeavesOtherRegistersAlone : Obligations.HostWriteLeavesOtherRegistersAlone := by
  intro a b v s ha hb
  refine ⟨_, hostWrite_of_ne ha v s, readReg_writeReg_of_ne v s fun hr => ?_, ?_⟩
  · exact (regAt_inj hr).resolve_left hb.symm
  · obtain ⟨_, _, _, _, _, _, _, h⟩ := writeReg_writes (regAt a) v s
    rw [h]
    exact ⟨rfl, rfl, rfl⟩

/-- A write to a register other than `CMD`, as a line of the script (R38). -/
theorem serve_write (r : Reg) (hr : r ≠ .cmd) (v : Word) (s : State) :
    serve (.wr (indexOf r) v) s = .next (writeReg r v s) := hostWrite_indexOf r hr v s

/-- A write to a register other than `CMD` and a read of it, one after the other (20_memory.md R46). -/
theorem runLines_write_read (r : Reg) (hr : r ≠ .cmd) (v : Word) (s : State) :
    ∃ t, runLines [.wr (indexOf r) v, .rd (indexOf r)] s = .next t ∧
      t.reads = s.reads ++ [readReg r (writeReg r v s)] := by
  refine ⟨_, runLines_cons_next (serve_write r hr v s) _, ?_⟩
  rw [State.setReads_reads, writeReg_reads, hostRead_indexOf]

theorem loByte_zeroExtend_eq_ofNat_mod (v : Word) : (loByte v).zeroExtend 16 = BitVec.ofNat 16 (v.toNat % 256) := by
  apply BitVec.eq_of_toNat_eq
  rw [zeroExtend_toNat (by decide), loByte_toNat, BitVec.toNat_ofNat]
  omega

/-- An index of the `RXBUF` range is that of one entry (R34). -/
theorem exists_indexOf_rxbuf {a : Index} (hmin : 0x100 ≤ a.toNat) (hmax : a.toNat ≤ 0x1FF) :
    ∃ k, a = indexOf (.rxbuf k) := by
  refine ⟨⟨a.toNat - 0x100, by omega⟩, BitVec.eq_of_toNat_eq ?_⟩
  simp only [indexOf, BitVec.toNat_ofNat]
  omega

/-- Settles O21: each register by its own write and read, a byte register with the low byte of the value. -/
theorem readReturnsTheLatestWrite : Obligations.ReadReturnsTheLatestWrite := by
  intro s v a
  rw [← loByte_zeroExtend_eq_ofNat_mod]
  refine ⟨?words, ?bytes⟩
  case words =>
    rintro (rfl | rfl | rfl)
    · exact runLines_write_read .addr nofun v s
    · exact runLines_write_read .count nofun v s
    · exact runLines_write_read .value nofun v s
  case bytes =>
    rintro (rfl | rfl | rfl | ⟨hmin, hmax⟩)
    · exact runLines_write_read .unit nofun v s
    · exact runLines_write_read .data nofun v s
    · exact runLines_write_read .rxLen nofun v s
    · obtain ⟨k, rfl⟩ := exists_indexOf_rxbuf hmin hmax
      have h := runLines_write_read (.rxbuf k) nofun v s
      rwa [show readReg (.rxbuf k) (writeReg (.rxbuf k) v s) = (loByte v).zeroExtend 16 by simp [readReg, writeReg]] at h

end Sys2Proof.Machine
end

section
/-! PROOFS. What the commands do not depend on (spec 10_state.md sections 4 and 8, 20_memory.md sections 2 and 4). -/

namespace Sys2Proof.Machine

open Sys2Proof.Safety

/-! ### No command reads what only the block writes -/

/-- The state with other values in the five registers that only the block writes (R27). -/
def withOutputs (status txLen : Nibble) (exc resCount : Byte) (c : Word) (s : State) : State :=
  { s with status := status, txLen := txLen, exc := exc, resCount := resCount, crc := c }

section
variable (status txLen : Nibble) (exc resCount : Byte) (c : Word) (s : State)

theorem effect_crcCheck_withOutputs : effect .crcCheck (withOutputs status txLen exc resCount c s) =
    { effect .crcCheck s with txLen := txLen, exc := exc, resCount := resCount, crc := c } := by
  have htest : checkTrailer (withOutputs status txLen exc resCount c s) = checkTrailer s := rfl
  rw [effect_crcCheck, effect_crcCheck, htest]
  rfl

theorem effect_encRead_withOutputs : effect .encRead (withOutputs status txLen exc resCount c s) =
    { effect .encRead s with exc := exc, resCount := resCount, crc := c } := by
  change encodeRead _ = { encodeRead s with exc := exc, resCount := resCount, crc := c }
  cases hcount : countLegal s with
  | false =>
    rw [encodeRead_illegal s hcount]
    exact encodeRead_illegal (withOutputs status txLen exc resCount c s) hcount
  | true =>
    rw [encodeRead_legal s hcount]
    exact encodeRead_legal (withOutputs status txLen exc resCount c s) hcount

theorem effect_encWrite_withOutputs : effect .encWrite (withOutputs status txLen exc resCount c s) =
    { effect .encWrite s with exc := exc, resCount := resCount, crc := c } := rfl

theorem effect_decRead_withOutputs : effect .decRead (withOutputs status txLen exc resCount c s) =
    { effect .decRead s with txLen := txLen, crc := c } := by
  have htest : checkReadResponse (withOutputs status txLen exc resCount c s) = checkReadResponse s := rfl
  change decodeRead _ = { decodeRead s with txLen := txLen, crc := c }
  rw [decodeRead_eq, decodeRead_eq, htest]
  cases checkReadResponse s <;> rfl

theorem effect_decWrite_withOutputs : effect .decWrite (withOutputs status txLen exc resCount c s) =
    { effect .decWrite s with txLen := txLen, crc := c } := by
  have htest : checkWriteResponse (withOutputs status txLen exc resCount c s) = checkWriteResponse s := rfl
  change decodeWrite _ = { decodeWrite s with txLen := txLen, crc := c }
  rw [decodeWrite_eq, decodeWrite_eq, htest]
  cases checkWriteResponse s <;> rfl

end

/-- Settles O27: each command on the state with other outputs, by its own lemma. -/
theorem noResultDependsOnStatusOrLengths : Obligations.NoResultDependsOnStatusOrLengths := by
  intro i s status txLen exc resCount hi
  refine ⟨effect i s, effect i (withOutputs status txLen exc resCount s.crc s), exec_eq i s, exec_eq i _, ?_⟩
  have hcrc : i ≠ .crcInit → i ≠ .crcByte → i ≠ .crcBuf → (effect i s).crc = s.crc :=
    (effect_keepsOtherFamilies hi s).left
  obtain ⟨word, hword⟩ := hi
  cases i with
  | crcInit | crcByte | crcBuf => exact ⟨rfl, rfl, rfl, rfl, nofun, nofun⟩
  | crcCheck =>
    rw [effect_crcCheck_withOutputs]
    exact ⟨rfl, (hcrc nofun nofun nofun).symm, rfl, rfl, nofun, nofun⟩
  | encRead =>
    rw [effect_encRead_withOutputs]
    exact ⟨rfl, (hcrc nofun nofun nofun).symm, rfl, rfl, fun _ => rfl, nofun⟩
  | encWrite => exact ⟨rfl, rfl, rfl, rfl, fun _ => rfl, nofun⟩
  | decRead =>
    rw [effect_decRead_withOutputs]
    exact ⟨rfl, (hcrc nofun nofun nofun).symm, rfl, rfl, nofun, fun _ => ⟨rfl, rfl⟩⟩
  | decWrite =>
    rw [effect_decWrite_withOutputs]
    exact ⟨rfl, (hcrc nofun nofun nofun).symm, rfl, rfl, nofun, fun _ => ⟨rfl, rfl⟩⟩
  | _ => nomatch hword

/-- With another `CRC` beforehand, a command outside the CRC generator's family leaves the same state with that `CRC`: the
lemmas above, with the other four registers as they were. -/
theorem effect_setCrc {i : Instr} (hi : i ∈ [Instr.crcCheck, .encRead, .encWrite, .decRead, .decWrite]) (s : State)
    (c : Word) : effect i (s.setCrc c) = (effect i s).setCrc c := by
  have hs : s.setCrc c = withOutputs s.status s.txLen s.exc s.resCount c s := rfl
  simp only [List.mem_cons, List.not_mem_nil, or_false] at hi
  rw [hs]
  rcases hi with rfl | rfl | rfl | rfl | rfl
  · rw [effect_crcCheck_withOutputs, effect_crcCheck]
    rfl
  · obtain ⟨frame, len, code, hwrites⟩ := encodeRead_writes s
    rw [effect_encRead_withOutputs, show effect .encRead s = _ from hwrites]
    rfl
  · rfl
  · obtain ⟨values, count, info, code, hwrites, -⟩ := decodeRead_writes s
    rw [effect_decRead_withOutputs, show effect .decRead s = _ from hwrites]
    rfl
  · obtain ⟨info, code, hwrites⟩ := decodeWrite_writes s
    rw [effect_decWrite_withOutputs, show effect .decWrite s = _ from hwrites]
    rfl

/-- Settles O28: `CRC` is kept by the frame of the command's family, and not read. -/
theorem crcRegisterIsPrivateToItsFamily : Obligations.CrcRegisterIsPrivateToItsFamily := by
  intro i s c hi
  refine ⟨effect i s, exec_eq i s, ?kept, ?notRead⟩
  case kept => exact (congrArg State.crc (effect_setCrc hi s s.crc) :)
  case notRead => exact (exec_eq i (s.setCrc c)).trans (congrArg Host.Outcome.next (effect_setCrc hi s c))

/-! ### Running a command again -/

theorem encodeRead_idempotent (s : State) : encodeRead (encodeRead s) = encodeRead s := by
  cases hcount : countLegal s with
  | false =>
    rw [encodeRead_illegal s hcount]
    exact encodeRead_illegal (raise .encoder .invalidArgument s) hcount
  | true =>
    rw [encodeRead_legal s hcount]
    exact encodeRead_legal (putRequest (requestFrame s.unit Config.fcRead s.addr s.count) s) hcount

/-- Delivering the same values over themselves leaves `RESULT` as it is. -/
theorem decodedResult_idempotent (s : State) : decodedResult (s.setResult (decodedResult s)) = decodedResult s := by
  refine Vector.ext fun k hk => ?_
  simp only [decodedResult_getElem, State.setResult_result, State.setResult_count, State.setResult_rxbuf]
  split_ifs <;> rfl

theorem decodeRead_idempotent (s : State) : decodeRead (decodeRead s) = decodeRead s := by
  rcases decodeRead_cases s with ⟨failure, hcheck, h⟩ | ⟨hcheck, h⟩
  · have hagain : checkReadResponse (decodeRead s) = some failure := by rwa [h]
    rw [decodeRead_eq (decodeRead s), hagain, h]
    rfl
  · have hagain : checkReadResponse (decodeRead s) = none := by rwa [h]
    have hvalues : decodedResult (decodeRead s) = decodedResult s := by
      rw [h]
      exact decodedResult_idempotent s
    rw [decodeRead_eq (decodeRead s), hagain, hvalues, h]
    rfl

theorem decodeWrite_idempotent (s : State) : decodeWrite (decodeWrite s) = decodeWrite s := by
  rcases decodeWrite_cases s with ⟨failure, hcheck, h⟩ | ⟨hcheck, h⟩
  · have hagain : checkWriteResponse (decodeWrite s) = some failure := by rwa [h]
    rw [decodeWrite_eq (decodeWrite s), hagain, h]
    rfl
  · have hagain : checkWriteResponse (decodeWrite s) = none := by rwa [h]
    rw [decodeWrite_eq (decodeWrite s), hagain, h]
    rfl

theorem effect_idempotent {i : Instr} (hi : IsCommand i) (hne : i ≠ .crcByte) (s : State) :
    effect i (effect i s) = effect i s := by
  obtain ⟨word, hword⟩ := hi
  cases i with
  | crcInit | crcBuf | encWrite => rfl
  | crcByte => exact absurd rfl hne
  | crcCheck =>
    rw [effect_crcCheck s]
    exact effect_crcCheck (s.setStatus _)
  | encRead => exact encodeRead_idempotent s
  | decRead => exact decodeRead_idempotent s
  | decWrite => exact decodeWrite_idempotent s
  | _ => nomatch hword

/-- Settles O29: run again, a command finds its operands as they were. -/
theorem commandsButCrcByteAreIdempotent : Obligations.CommandsButCrcByteAreIdempotent := by
  intro i s hi hne
  exact ⟨effect i s, exec_eq i s, (exec_eq i _).trans (congrArg Host.Outcome.next (effect_idempotent hi hne s))⟩

/-! ### Bytes at and beyond `RX_LEN` -/

section
variable {s : State} {other : Vector Byte 256} (hsame : SameReceived s (s.setRxbuf other))
include hsame

theorem getElem_of_sameReceived {k : Nat} (hk : k < 256) (hlt : k < s.rxLen.toNat) : other[k] = s.rxbuf[k] :=
  (hsame.right ⟨k, hk⟩ hlt).symm

theorem received_of_sameReceived : received (s.setRxbuf other) = received s :=
  (received_congr hsame.left hsame.right).symm

theorem checkTrailer_of_sameReceived : checkTrailer (s.setRxbuf other) = checkTrailer s := by
  rw [checkTrailer, received_of_sameReceived hsame]
  rfl

/-- The front end reads bytes 0 to 2 only of a sequence of five bytes or more (R92). -/
theorem decodeFront_of_sameReceived (function : Byte) (normalLength : Nat) (mismatch : Failure) :
    decodeFront function normalLength mismatch (s.setRxbuf other) = decodeFront function normalLength mismatch s := by
  rw [decodeFront_eq_tests, decodeFront_eq_tests, received_of_sameReceived hsame]
  by_cases hshort : s.rxLen.toNat < 5
  · rw [State.setRxbuf_rxLen, if_pos hshort, if_pos hshort]
  · have h0 : other[0] = s.rxbuf[0] := getElem_of_sameReceived hsame (by decide) (by omega)
    have h1 : other[1] = s.rxbuf[1] := getElem_of_sameReceived hsame (by decide) (by omega)
    have h2 : other[2] = s.rxbuf[2] := getElem_of_sameReceived hsame (by decide) (by omega)
    simp [sameFunction, h0, h1, h2]

theorem checkReadResponse_of_sameReceived : checkReadResponse (s.setRxbuf other) = checkReadResponse s := by
  rw [checkReadResponse, checkReadResponse, decodeFront_of_sameReceived hsame]
  rfl

/-- The echo is compared only where the front end has seen eight bytes (R94). -/
theorem checkWriteResponse_of_sameReceived : checkWriteResponse (s.setRxbuf other) = checkWriteResponse s := by
  rw [checkWriteResponse, checkWriteResponse, decodeFront_of_sameReceived hsame]
  cases hfront : decodeFront Config.fcWrite Config.requestLength .unexpectedEcho s with
  | some failure => rfl
  | none =>
    obtain ⟨-, hlen, -⟩ := (decodeFront_eq_none_iff _ _ _ s).mp hfront
    rw [Config.requestLength] at hlen
    have h2 : other[2] = s.rxbuf[2] := getElem_of_sameReceived hsame (by decide) (by omega)
    have h3 : other[3] = s.rxbuf[3] := getElem_of_sameReceived hsame (by decide) (by omega)
    have h4 : other[4] = s.rxbuf[4] := getElem_of_sameReceived hsame (by decide) (by omega)
    have h5 : other[5] = s.rxbuf[5] := getElem_of_sameReceived hsame (by decide) (by omega)
    simp [echoMatches, h2, h3, h4, h5]

/-- Where the tests of `DEC_READ` find nothing, every value lies below `RX_LEN` (R93, R99). -/
theorem decodedResult_of_sameReceived (hnone : checkReadResponse s = none) :
    decodedResult (s.setRxbuf other) = decodedResult s := by
  obtain ⟨-, hfront⟩ := (checkReadResponse_eq_none_iff s).mp hnone
  obtain ⟨-, hlong, -⟩ := (decodeFront_eq_none_iff _ _ _ s).mp hfront
  have hlt := s.rxLen.isLt
  refine Vector.ext fun k hk => ?_
  rw [decodedResult_getElem, decodedResult_getElem]
  by_cases hvalue : k < s.count.toNat
  · have hhigh : other[3 + 2 * k] = s.rxbuf[3 + 2 * k] := getElem_of_sameReceived hsame (by omega) (by omega)
    have hlow : other[4 + 2 * k] = s.rxbuf[4 + 2 * k] := getElem_of_sameReceived hsame (by omega) (by omega)
    simp [hvalue, hhigh, hlow]
  · simp [hvalue]

theorem decodeRead_of_sameReceived : decodeRead (s.setRxbuf other) = (decodeRead s).setRxbuf other := by
  rw [decodeRead_eq, checkReadResponse_of_sameReceived hsame, decodeRead_eq]
  cases hcheck : checkReadResponse s with
  | some failure => rfl
  | none =>
    rw [decodedResult_of_sameReceived hsame hcheck]
    rfl

theorem decodeWrite_of_sameReceived : decodeWrite (s.setRxbuf other) = (decodeWrite s).setRxbuf other := by
  rw [decodeWrite_eq, checkWriteResponse_of_sameReceived hsame, decodeWrite_eq]
  cases checkWriteResponse s <;> rfl

theorem effect_crcBuf_of_sameReceived : effect .crcBuf (s.setRxbuf other) = (effect .crcBuf s).setRxbuf other := by
  change succeed ((s.setRxbuf other).setCrc (crc16 (received (s.setRxbuf other)))) = _
  rw [received_of_sameReceived hsame]
  rfl

theorem effect_crcCheck_of_sameReceived : effect .crcCheck (s.setRxbuf other) = (effect .crcCheck s).setRxbuf other := by
  rw [effect_crcCheck, checkTrailer_of_sameReceived hsame, effect_crcCheck]
  rfl

end

/-- The encoder reads no byte of `RXBUF` at all (R85). -/
theorem encodeRead_setRxbuf (s : State) (other : Vector Byte 256) :
    encodeRead (s.setRxbuf other) = (encodeRead s).setRxbuf other := by
  cases hcount : countLegal s with
  | false =>
    rw [encodeRead_illegal s hcount]
    exact encodeRead_illegal (s.setRxbuf other) hcount
  | true =>
    rw [encodeRead_legal s hcount]
    exact encodeRead_legal (s.setRxbuf other) hcount

/-- Settles O30: each command on the other buffer, by its own lemma. -/
theorem nothingBeyondRxLenIsRead : Obligations.NothingBeyondRxLenIsRead := by
  intro i s other hi hsame
  refine ⟨effect i s, exec_eq i s, (exec_eq i (s.setRxbuf other)).trans (congrArg Host.Outcome.next ?_)⟩
  obtain ⟨word, hword⟩ := hi
  cases i with
  | crcInit | crcByte | encWrite => rfl
  | crcBuf => exact effect_crcBuf_of_sameReceived hsame
  | crcCheck => exact effect_crcCheck_of_sameReceived hsame
  | encRead => exact encodeRead_setRxbuf s other
  | decRead => exact decodeRead_of_sameReceived hsame
  | decWrite => exact decodeWrite_of_sameReceived hsame
  | _ => nomatch hword

end Sys2Proof.Machine
end

section
/-! PROOFS. The encoder's frames (spec 41_encoder.md R85 to R90): the trailer, and the frame as a function of its
operands. -/

namespace Sys2Proof.Machine

open Sys2Proof.Safety

/-! ### The frame of a successful build -/

/-- `ENC_READ` puts the request frame into `TXBUF`, or refuses the count and leaves `TXBUF` as it was (R85). -/
theorem encodeRead_cases (s : State) :
    (encodeRead s = putRequest (requestFrame s.unit Config.fcRead s.addr s.count) s) ∨
    (encodeRead s = { s with status := 0x1, txLen := 0 }) := by
  cases hcount : countLegal s with
  | true => exact .inl (encodeRead_legal s hcount)
  | false => exact .inr (encodeRead_illegal s hcount)

/-- A frame that the encoder has put is transmittable, passes the verifier and leaves the residue zero (R87). -/
theorem putRequest_requestFrame_checked (unit function : Byte) (addr operand : Word) (s : State) :
    let t := putRequest (requestFrame unit function addr operand) s
    Transmittable t ∧ crcOk t.txbuf.toList = true ∧ crc16 t.txbuf.toList = 0x0000 :=
  ⟨⟨rfl, rfl⟩, crcOk_withTrailer (requestBody unit function addr operand),
    crc16_withTrailer (requestBody unit function addr operand)⟩

/-- Settles O31: both outcomes of `ENC_READ`, and the one of `ENC_WRITE`. -/
theorem builtFrameHasARightTrailer : Obligations.BuiltFrameHasARightTrailer := by
  refine ⟨fun s t hbuild hok => ?built, fun s => ?encRead, fun s => ⟨_, rfl, rfl⟩⟩
  case built =>
    rcases hbuild with h | h <;> obtain rfl := Host.Outcome.next.inj h
    · rcases encodeRead_cases s with he | he <;> rw [he] at hok ⊢
      · exact putRequest_requestFrame_checked s.unit Config.fcRead s.addr s.count s
      · exact absurd hok (failureCode_ne_ok .invalidArgument)
    · exact putRequest_requestFrame_checked s.unit Config.fcWrite s.addr s.value s
  case encRead =>
    refine ⟨encodeRead s, rfl, ?_⟩
    rcases encodeRead_cases s with he | he <;> rw [he]
    · exact ⟨.inl rfl, fun h => absurd h.symm (failureCode_ne_ok .invalidArgument)⟩
    · exact ⟨.inr rfl, fun _ => ⟨rfl, rfl⟩⟩

/-! ### The frame as a function of its operands -/

theorem beBytes_inj {v w : Word} : hiByte v = hiByte w ∧ loByte v = loByte w ↔ v = w := by
  rw [← joinBytes_inj, joinBytes_hi_lo, joinBytes_hi_lo]

/-- Bytes 0 to 5 hold the operands (R90). -/
theorem requestBody_inj {unit unit' function : Byte} {addr addr' operand operand' : Word} :
    requestBody unit function addr operand = requestBody unit' function addr' operand' ↔
      unit = unit' ∧ addr = addr' ∧ operand = operand' := by
  rw [← beBytes_inj (v := addr), ← beBytes_inj (v := operand)]
  simp [requestBody, beBytes, and_assoc]

theorem requestFrame_take (unit function : Byte) (addr operand : Word) :
    (requestFrame unit function addr operand).toList.take 6 = requestBody unit function addr operand := rfl

theorem requestFrame_inj {unit unit' function : Byte} {addr addr' operand operand' : Word} :
    requestFrame unit function addr operand = requestFrame unit' function addr' operand' ↔
      unit = unit' ∧ addr = addr' ∧ operand = operand' := by
  constructor
  · intro h
    rw [← requestBody_inj (function := function), ← requestFrame_take, ← requestFrame_take, h]
  · rintro ⟨rfl, rfl, rfl⟩
    rfl

theorem encodeRead_txbuf {s : State} (hmin : 1 ≤ s.count.toNat) (hmax : s.count.toNat ≤ 125) :
    (encodeRead s).txbuf = requestFrame s.unit Config.fcRead s.addr s.count := by
  rw [encodeRead_legal s ((countLegal_iff s).mpr ⟨hmin, hmax⟩)]

theorem encodeWrite_txbuf (s : State) : (encodeWrite s).txbuf = requestFrame s.unit Config.fcWrite s.addr s.value := rfl

/-- Settles O32: each command's frame by its operands, and the two function codes. -/
theorem encoderIsAnInjectiveFunctionOfItsOperands : Obligations.EncoderIsAnInjectiveFunctionOfItsOperands := by
  refine fun s t => ⟨fun hmin hmax hmin' hmax' => ⟨encodeRead s, encodeRead t, rfl, rfl, ?read⟩,
    ⟨encodeWrite s, encodeWrite t, rfl, rfl, ?write⟩, fun hmin hmax => ⟨encodeRead s, encodeWrite t, rfl, rfl, ?differ⟩⟩
  case read =>
    rw [encodeRead_txbuf hmin hmax, encodeRead_txbuf hmin' hmax', requestFrame_inj, requestFrame_take, requestFrame_take,
      requestBody_inj]
    exact ⟨.rfl, .rfl⟩
  case write =>
    rw [encodeWrite_txbuf, encodeWrite_txbuf, requestFrame_inj, requestFrame_take, requestFrame_take, requestBody_inj]
    exact ⟨.rfl, .rfl⟩
  case differ =>
    simp only [encodeRead_txbuf hmin hmax, encodeWrite_txbuf]
    change Config.fcRead ≠ Config.fcWrite
    decide

end Sys2Proof.Machine
end

section
/-! PROOFS. What the decoder does with whole sequences (spec 42_decoder.md sections 4 and 5): a wrong trailer, zero bytes
after the frame, the round trip of a read response, the echo of a write request. -/

namespace Sys2Proof.Machine

open Sys2Proof.Safety

/-! ### The tests before the trailer, and those after -/

/-- The tests of the front end that stand before the trailer's: length, unit and function code (R92). -/
def HeaderAccepted (function : Byte) (normalLength : Nat) (s : State) : Prop :=
  5 ≤ s.rxLen.toNat ∧ (isException s = true ∨ normalLength ≤ s.rxLen.toNat) ∧ s.rxbuf[0] = s.unit ∧
    sameFunction function s = true

theorem decodeFront_of_headerAccepted {function : Byte} {normalLength : Nat} {s : State}
    (h : HeaderAccepted function normalLength s) (mismatch : Failure) :
    decodeFront function normalLength mismatch s =
      if crcOk (received s) = false then some .crcMismatch
      else if isException s = true then some (.modbusException s.rxbuf[2])
      else none := by
  obtain ⟨hlen, hlong, hunit, hfunction⟩ := h
  unfold decodeFront Config.absMinFrame
  cases hexc : isException s with
  | true => simp [hlen.not_gt, hunit, hfunction]
  | false =>
    have hnormal : normalLength ≤ s.rxLen.toNat := hlong.resolve_left (ne_true_of_eq_false hexc)
    simp [hlen.not_gt, hnormal.not_gt, hunit, hfunction]

/-- A front end that finds nothing, or an exception, has accepted the header and the trailer (R92). -/
theorem headerAccepted_of_decodeFront {function : Byte} {normalLength : Nat} {mismatch : Failure} {s : State}
    (hmismatch : failureCode mismatch ≠ 0x6)
    (h : ∀ failure, decodeFront function normalLength mismatch s = some failure → failureCode failure = 0x6) :
    HeaderAccepted function normalLength s ∧ crcOk (received s) = true := by
  cases hfront : decodeFront function normalLength mismatch s with
  | none =>
    obtain ⟨hlen, hnormal, -, hunit, hfunction, hcrc⟩ := (decodeFront_eq_none_iff _ _ _ s).mp hfront
    exact ⟨⟨hlen, .inr hnormal, hunit, hfunction⟩, hcrc⟩
  | some failure =>
    have hcode := h failure hfront
    rcases decodeFront_eq_some hfront with ⟨rfl, -⟩ | ⟨hlen, hlong, ⟨rfl, -⟩ | ⟨hunit, hfunction, ⟨rfl, -⟩ | ⟨-, hcrc, -⟩⟩⟩
    · exact absurd hcode (by decide)
    · exact absurd hcode hmismatch
    · exact absurd hcode (by decide)
    · exact ⟨⟨hlen, hlong, hunit, hfunction⟩, hcrc⟩

/-- The status that a command leaves is `OK` or `ModbusException`: the front end has let the sequence through. -/
def Heard (s : State) : Prop := s.status = 0x0 ∨ s.status = 0x6

/-- `DEC_READ` ends so only where `COUNT`, the header and the trailer are right. -/
theorem headerAccepted_of_decodeRead {s : State} (h : Heard (decodeRead s)) :
    countLegal s = true ∧ HeaderAccepted Config.fcRead (5 + 2 * s.count.toNat) s ∧ crcOk (received s) = true := by
  have hfailure (failure : Failure) (hcheck : checkReadResponse s = some failure) : failureCode failure = 0x6 := by
    rw [Heard, decodeRead_eq, hcheck] at h
    exact h.resolve_left (failureCode_ne_ok failure)
  unfold checkReadResponse at hfailure
  cases hcount : countLegal s with
  | false =>
    rw [hcount] at hfailure
    exact absurd (hfailure .invalidArgument rfl) (by decide)
  | true =>
    rw [hcount] at hfailure
    exact ⟨rfl, headerAccepted_of_decodeFront (by decide) hfailure⟩

/-- `DEC_WRITE` ends so only where the header and the trailer are right. -/
theorem headerAccepted_of_decodeWrite {s : State} (h : Heard (decodeWrite s)) :
    HeaderAccepted Config.fcWrite Config.requestLength s ∧ crcOk (received s) = true := by
  refine headerAccepted_of_decodeFront (mismatch := .unexpectedEcho) (by decide) fun failure hfront => ?_
  have hcheck : checkWriteResponse s = some failure := by rw [checkWriteResponse, hfront]
  rw [Heard, decodeWrite_eq, hcheck] at h
  exact h.resolve_left (failureCode_ne_ok failure)

/-! ### Another trailer -/

section
variable {s : State} {other : Vector Byte 256}
  (hsame : ∀ k : Fin 256, k.val + 2 ≠ s.rxLen.toNat → k.val + 1 ≠ s.rxLen.toNat → other[k] = s.rxbuf[k])
include hsame

/-- The header stands before the trailer: a sequence of five bytes or more with another trailer has the same one. -/
theorem headerAccepted_setRxbuf {function : Byte} {normalLength : Nat} (h : HeaderAccepted function normalLength s) :
    HeaderAccepted function normalLength (s.setRxbuf other) := by
  obtain ⟨hlen, hlong, hunit, hfunction⟩ := h
  have h0 : other[0] = s.rxbuf[0] := hsame 0 (by simp; omega) (by simp; omega)
  have h1 : other[1] = s.rxbuf[1] := hsame 1 (by simp; omega) (by simp; omega)
  refine ⟨hlen, ?_, h0.trans hunit, ?_⟩
  · rwa [isException, State.setRxbuf_rxbuf, h1]
  · rwa [sameFunction, State.setRxbuf_rxbuf, h1]

theorem received_take_setRxbuf :
    (received (s.setRxbuf other)).take (s.rxLen.toNat - 2) = (received s).take (s.rxLen.toNat - 2) := by
  have hlt := s.rxLen.isLt
  apply List.ext_getElem?
  intro k
  by_cases hk : k < s.rxLen.toNat - 2
  · have hbyte : other[k] = s.rxbuf[k] := hsame ⟨k, by omega⟩ (by simp only; omega) (by simp only; omega)
    rw [List.getElem?_take_of_lt hk, List.getElem?_take_of_lt hk, getElem?_received _ k (by simp; omega),
      getElem?_received _ k (by omega)]
    exact congrArg some hbyte
  · rw [List.getElem?_take_eq_none (by omega), List.getElem?_take_eq_none (by omega)]

/-- A body has one right trailer, so any other is wrong (R101). -/
theorem crcOk_setRxbuf (hlen : 2 ≤ s.rxLen.toNat) (hok : crcOk (received s) = true)
    (hne : received (s.setRxbuf other) ≠ received s) : crcOk (received (s.setRxbuf other)) = false := by
  by_contra hother
  rw [Bool.not_eq_false] at hother
  refine hne (eq_of_crcOk (by simpa using hlen) (by simp) ?_ hother hok)
  rw [length_received]
  exact received_take_setRxbuf hsame

theorem decodeFront_setRxbuf {function : Byte} {normalLength : Nat} (hheader : HeaderAccepted function normalLength s)
    (hok : crcOk (received s) = true) (hne : received (s.setRxbuf other) ≠ received s) (mismatch : Failure) :
    decodeFront function normalLength mismatch (s.setRxbuf other) = some .crcMismatch := by
  have hlen : 5 ≤ s.rxLen.toNat := hheader.left
  rw [decodeFront_of_headerAccepted (headerAccepted_setRxbuf hsame hheader), crcOk_setRxbuf hsame (by omega) hok hne]
  rfl

end

/-- Settles O34: the header is accepted as before, and the trailer is not. -/
theorem anyTrailerChangeIsACrcMismatch : Obligations.AnyTrailerChangeIsACrcMismatch := by
  intro i s t other hi ht hheard hsame hne
  rcases hi with rfl | rfl <;> obtain rfl := Host.Outcome.next.inj ht
  · obtain ⟨hcount, hheader, hok⟩ := headerAccepted_of_decodeRead hheard
    have hcheck : checkReadResponse (s.setRxbuf other) = some .crcMismatch :=
      (if_pos hcount).trans (decodeFront_setRxbuf hsame hheader hok hne _)
    exact congrArg Host.Outcome.next ((decodeRead_eq (s.setRxbuf other)).trans (by rw [hcheck]; rfl))
  · obtain ⟨hheader, hok⟩ := headerAccepted_of_decodeWrite hheard
    have hcheck : checkWriteResponse (s.setRxbuf other) = some .crcMismatch := by
      rw [checkWriteResponse, decodeFront_setRxbuf hsame hheader hok hne]
    exact congrArg Host.Outcome.next ((decodeWrite_eq (s.setRxbuf other)).trans (by rw [hcheck]; rfl))

/-! ### Zero bytes after the frame -/

section
variable {s : State} {n : Byte} (hle : s.rxLen.toNat ≤ n.toNat)
  (hzero : ∀ k : Fin 256, s.rxLen.toNat ≤ k.val → k.val < n.toNat → s.rxbuf[k] = 0x00)

include hle in
theorem headerAccepted_setRxLen {function : Byte} {normalLength : Nat} (h : HeaderAccepted function normalLength s) :
    HeaderAccepted function normalLength (s.setRxLen n) := by
  obtain ⟨hlen, hlong, hunit, hfunction⟩ := h
  exact ⟨hlen.trans hle, hlong.imp_right (·.trans hle), hunit, hfunction⟩

include hle hzero

theorem received_setRxLen : received (s.setRxLen n) = received s ++ List.replicate (n.toNat - s.rxLen.toNat) 0 := by
  have hlt := n.isLt
  refine (received_eq_iff _ _).mpr ⟨by simp; omega, fun k hk => ?_⟩
  rw [State.setRxLen_rxLen] at hk
  by_cases hfirst : k < s.rxLen.toNat
  · rw [List.getElem?_append_left (by simpa using hfirst), getElem?_received s k hfirst]
    rfl
  · have hbyte : s.rxbuf[k] = 0x00 := hzero ⟨k, by omega⟩ (by simp only; omega) hk
    rw [List.getElem?_append_right (by simp; omega), List.getElem?_replicate_of_lt (by simp; omega)]
    exact congrArg some hbyte.symm

theorem decodeFront_setRxLen {function : Byte} {normalLength : Nat} (hheader : HeaderAccepted function normalLength s)
    (hok : crcOk (received s) = true) (mismatch : Failure) :
    decodeFront function normalLength mismatch (s.setRxLen n) = decodeFront function normalLength mismatch s := by
  have hlen : 5 ≤ s.rxLen.toNat := hheader.left
  have hok' : crcOk (received (s.setRxLen n)) = true := by
    rw [received_setRxLen hle hzero]
    exact crcOk_append_zeros (by simp; omega) hok _
  rw [decodeFront_of_headerAccepted (headerAccepted_setRxLen hle hheader), decodeFront_of_headerAccepted hheader, hok, hok']
  rfl

end

/-- Settles O35: the tests find what they found, and nothing else reads `RX_LEN`. -/
theorem trailingZeroBytesAreAccepted : Obligations.TrailingZeroBytesAreAccepted := by
  intro i s t n hi ht hheard hle hzero
  rcases hi with rfl | rfl <;> obtain rfl := Host.Outcome.next.inj ht
  · obtain ⟨hcount, hheader, hok⟩ := headerAccepted_of_decodeRead hheard
    have hcheck : checkReadResponse (s.setRxLen n) = checkReadResponse s := by
      rw [checkReadResponse, checkReadResponse, ← decodeFront_setRxLen hle hzero hheader hok]
      rfl
    change Host.Outcome.next (decodeRead (s.setRxLen n)) = .next ((decodeRead s).setRxLen n)
    rw [decodeRead_eq, hcheck, decodeRead_eq]
    cases checkReadResponse s <;> rfl
  · obtain ⟨hheader, hok⟩ := headerAccepted_of_decodeWrite hheard
    have hcheck : checkWriteResponse (s.setRxLen n) = checkWriteResponse s := by
      rw [checkWriteResponse, checkWriteResponse, ← decodeFront_setRxLen hle hzero hheader hok]
      rfl
    change Host.Outcome.next (decodeWrite (s.setRxLen n)) = .next ((decodeWrite s).setRxLen n)
    rw [decodeWrite_eq, hcheck, decodeWrite_eq]
    cases checkWriteResponse s <;> rfl

/-! ### A read response received -/

section
variable {s : State} {byteCount : Byte} {values : List Word}
  (h : received s = withTrailer (s.unit :: Config.fcRead :: byteCount :: wordsBytes values))
  (hcount : s.count.toNat = values.length) (hmin : 1 ≤ values.length) (hmax : values.length ≤ 125)
include h

theorem rxLen_of_readResponse : s.rxLen.toNat = 5 + 2 * values.length := by
  rw [← length_received, h]
  simp [withTrailer, leBytes]
  omega

/-- Value `k` stands at bytes `3 + 2k` and `4 + 2k`, its high byte first (R60). -/
theorem rxbuf_of_readResponse {k : Nat} (hk : k < values.length) (hk' : k < 125) :
    s.rxbuf[3 + 2 * k] = hiByte values[k] ∧ s.rxbuf[4 + 2 * k] = loByte values[k] := by
  obtain ⟨hhigh, hlow⟩ := getElem?_wordsBytes values k hk
  have hbyte (j : Nat) (hj : j < 2 * values.length) :
      (withTrailer (s.unit :: Config.fcRead :: byteCount :: wordsBytes values))[j + 3]? = (wordsBytes values)[j]? :=
    List.getElem?_append_left (by simpa using hj)
  constructor
  · refine rxbuf_of_received h (3 + 2 * k) (by omega) ?_
    rw [Nat.add_comm, hbyte _ (by omega), hhigh]
  · refine rxbuf_of_received h (4 + 2 * k) (by omega) ?_
    rw [show 4 + 2 * k = 2 * k + 1 + 3 by omega, hbyte _ (by omega), hlow]

include hcount

theorem decodedResult_of_readResponse (k : Nat) (hk : k < 125) : (decodedResult s)[k] = (values[k]?).getD s.result[k] := by
  rw [decodedResult_getElem, hcount]
  by_cases hvalue : k < values.length
  · obtain ⟨hhigh, hlow⟩ := rxbuf_of_readResponse h hvalue hk
    rw [if_pos hvalue, hhigh, hlow, joinBytes_hi_lo, List.getElem?_eq_getElem hvalue, Option.getD_some]
  · rw [if_neg hvalue, List.getElem?_eq_none (by omega), Option.getD_none]

include hmin hmax

theorem checkReadResponse_of_readResponse : checkReadResponse s = none := by
  have hlen := rxLen_of_readResponse h
  have hunit : s.rxbuf[0] = s.unit := rxbuf_of_received h 0 (by decide) rfl
  have hfunction : s.rxbuf[1] = 0x03 := rxbuf_of_received h 1 (by decide) rfl
  have hcrc : crcOk (received s) = true := by
    rw [h]
    exact crcOk_withTrailer _
  rw [checkReadResponse_of_normal hfunction hcrc, if_neg (by omega), if_neg (by omega), if_neg (not_not.mpr hunit)]

/-- `DEC_READ` delivers the values of a response of the addressed unit with as many as were asked for (R93, R100). -/
theorem decodeRead_of_readResponse : decodeRead s =
    { s with result := decodedResult s, resCount := BitVec.ofNat 8 values.length, exc := 0x00, status := 0x0 } := by
  rw [decodeRead_eq, checkReadResponse_of_readResponse h hcount hmin hmax, Option.elim_none, ← hcount]
  rfl

end

/-- Settles O33: the tests find nothing, and each value is joined again from its two bytes. -/
theorem readResponseRoundTrip : Obligations.ReadResponseRoundTrip := by
  intro s values hmin hmax hcount h
  refine ⟨_, congrArg Host.Outcome.next (decodeRead_of_readResponse h hcount hmin hmax), rfl, rfl, ?count, fun i => ?value,
    ⟨⟨rfl, rfl, rfl, rfl⟩, rfl, rfl, rfl⟩, ⟨rfl, rfl⟩, rfl, rfl, rfl, rfl⟩
  case count =>
    rw [BitVec.toNat_ofNat]
    omega
  case value => exact decodedResult_of_readResponse h hcount i i.isLt

/-! ### A write response received -/

section
variable {s : State} {unit : Byte} {addr value : Word}
  (h : received s = withTrailer (requestBody unit Config.fcWrite addr value))
include h

theorem echoMatches_of_writeResponse : echoMatches s = true ↔ s.addr = addr ∧ s.value = value := by
  have h2 : s.rxbuf[2] = hiByte addr := rxbuf_of_received h 2 (by decide) rfl
  have h3 : s.rxbuf[3] = loByte addr := rxbuf_of_received h 3 (by decide) rfl
  have h4 : s.rxbuf[4] = hiByte value := rxbuf_of_received h 4 (by decide) rfl
  have h5 : s.rxbuf[5] = loByte value := rxbuf_of_received h 5 (by decide) rfl
  rw [echoMatches_iff, h2, h3, h4, h5, ← and_assoc, beBytes_inj, beBytes_inj, eq_comm, eq_comm (a := value)]

/-- Of a write response with a right trailer, only the unit is tested by the front end. -/
theorem decodeFront_of_writeResponse :
    decodeFront Config.fcWrite Config.requestLength .unexpectedEcho s =
      if s.unit = unit then none else some .unexpectedEcho := by
  have hlen : s.rxLen.toNat = 8 := by
    rw [← length_received, h]
    rfl
  have h0 : s.rxbuf[0] = unit := rxbuf_of_received h 0 (by decide) rfl
  have h1 : s.rxbuf[1] = 0x06 := rxbuf_of_received h 1 (by decide) rfl
  have hfunction : sameFunction Config.fcWrite s = true := (sameFunction_write s).mpr (.inl h1)
  have hcrc : crcOk (received s) = true := by
    rw [h]
    exact crcOk_withTrailer _
  rw [decodeFront_eq_tests]
  simp [hlen, h0, h1, hfunction, hcrc, Config.requestLength, eq_comm (a := unit)]

/-- A write response with a right trailer is compared with the request's unit, address and value (R94). -/
theorem checkWriteResponse_of_writeResponse : checkWriteResponse s =
    if s.unit = unit ∧ s.addr = addr ∧ s.value = value then none else some .unexpectedEcho := by
  rw [checkWriteResponse, decodeFront_of_writeResponse h]
  simp only [← echoMatches_of_writeResponse h]
  by_cases hunit : s.unit = unit
  · simp [hunit]
  · simp [hunit]

/-- `DEC_WRITE` acknowledges such a response, or reports `UnexpectedEcho` (R94, R98). -/
theorem decodeWrite_of_writeResponse : decodeWrite s =
    { s with resCount := 0, exc := 0x00,
             status := if s.unit = unit ∧ s.addr = addr ∧ s.value = value then 0x0 else 0x5 } := by
  rw [decodeWrite_eq, checkWriteResponse_of_writeResponse h]
  by_cases hecho : s.unit = unit ∧ s.addr = addr ∧ s.value = value
  · rw [if_pos hecho, if_pos hecho]
    rfl
  · rw [if_neg hecho, if_neg hecho]
    rfl

end

/-- Settles O36: the request that `ENC_WRITE` builds has the layout of the response that `DEC_WRITE` waits for. -/
theorem echoOfTheOwnRequestIsAcknowledged : Obligations.EchoOfTheOwnRequestIsAcknowledged := by
  intro s t u ht hrequest hreceived
  obtain rfl := Host.Outcome.next.inj ht
  obtain ⟨hunit, haddr, -, hvalue⟩ := hrequest
  rw [exec, execDecWrite, decodeWrite_of_writeResponse (unit := s.unit) (addr := s.addr) (value := s.value) hreceived,
    if_pos ⟨hunit, haddr, hvalue⟩]

end Sys2Proof.Machine
end

section
/-! PROOFS. The frame rows and the host lines they stand for (spec 30_encoding.md sections 4 and 8,
70_reset_and_hazards.md section 2; logs 4 and 5), and the two forms of a CRC (40_crc.md R83). -/

namespace Sys2Proof.Machine

open Sys2Proof.Safety

/-! ### Requests -/

theorem withTrailer_of_wf {i : Instr} {crc : Word} (hwf : i.wf = true) (hcrc : frameCrc? i = some crc) :
    withTrailer (frameBody i) = frameBytes i := by
  rw [frameBytes_eq hcrc, withTrailer, Instr.trailer_of_wf hwf hcrc]

/-- Settles O41: the operand registers are written, and `ENC_READ` builds the frame or refuses the count. -/
theorem reqReadBuildsItsFrame : Obligations.ReqReadBuildsItsFrame := by
  intro unit addr count crc s
  have hexec : exec (.reqRead unit addr count crc) s = .next (encodeRead (((s.setUnit unit).setAddr addr).setCount count)) :=
    rfl
  rw [hexec]
  refine ⟨fun hmin hmax => ⟨requestFrame unit Config.fcRead addr count, ?built, rfl, fun hwf => withTrailer_of_wf hwf rfl⟩,
    fun hout => ?refused⟩
  case built => rw [encodeRead_legal _ ((countLegal_iff _).mpr ⟨hmin, hmax⟩)]; rfl
  case refused => rw [encodeRead_illegal _ ((countLegal_eq_false_iff _).mpr hout)]; rfl

/-- Settles O42: the operand registers are written, and `ENC_WRITE` builds the frame. -/
theorem reqWriteBuildsItsFrame : Obligations.ReqWriteBuildsItsFrame := fun unit addr value _ _ =>
  ⟨requestFrame unit Config.fcWrite addr value, rfl, rfl, fun hwf => withTrailer_of_wf hwf rfl⟩

/-! ### Responses -/

/-- The state after `bytes` are loaded as the received sequence and decoded: they are in place; entries beyond them, the
host's registers, the encoder's outputs, `CRC` and the run's fields are as before. -/
def LoadedAndDecoded (bytes : List Byte) (s t : State) : Prop :=
  Loaded t bytes ∧ (∀ k : Fin 256, bytes.length ≤ k.val → t.rxbuf[k] = s.rxbuf[k]) ∧
    SameRequest s t ∧ t.data = s.data ∧ t.crc = s.crc ∧ SameEncoderOutputs s t ∧ SameRunFields s t

/-- A decode command keeps what `LDRX` has left (10_state.md R27). -/
theorem loadedAndDecoded_effect {i : Instr} (hi : i = .decRead ∨ i = .decWrite) {bytes : List Byte}
    (hlen : bytes.length ≤ 255) (s : State) : LoadedAndDecoded bytes s (effect i (loadReceived bytes s)) := by
  have hcommand : IsCommand i := by rcases hi with rfl | rfl <;> exact ⟨_, rfl⟩
  have hother : i ≠ .crcInit ∧ i ≠ .crcByte ∧ i ≠ .crcBuf ∧ i ≠ .encRead ∧ i ≠ .encWrite := by
    rcases hi with rfl | rfl <;> exact ⟨nofun, nofun, nofun, nofun, nofun⟩
  obtain ⟨hinit, hbyte, hbuf, hread, hwrite⟩ := hother
  obtain ⟨hcrc, henc, -, -, ⟨hrequest, hdata, hrxLen, hrxbuf⟩, hrun⟩ :=
    effect_keepsOtherFamilies hcommand (loadReceived bytes s)
  refine ⟨?loaded, fun k hk => ?beyond, hrequest, hdata.symm, hcrc hinit hbyte hbuf, henc hread hwrite, hrun⟩
  case loaded =>
    rw [Loaded, received, ← hrxbuf, ← hrxLen]
    exact received_loadReceived bytes s hlen
  case beyond =>
    rw [← hrxbuf]
    exact loadReceived_rxbuf_of_le bytes s k hk

/-- The command that decodes a response row (R60 to R62). -/
def decoderOf : Instr → Instr
  | .rspWrite _ _ _ _ => .decWrite
  | .rspWriteExc _ _ _ => .decWrite
  | _ => .decRead

theorem exec_response {i : Instr} {bytes : List Byte} (hi : encode i = .response bytes) (s : State) :
    exec i s = .next (effect (decoderOf i) (loadReceived (frameBytes i) s)) := by
  cases i with
  | rspRead | rspWrite | rspReadExc | rspWriteExc => rfl
  | _ => nomatch hi

theorem decoderOf_eq (i : Instr) : decoderOf i = .decRead ∨ decoderOf i = .decWrite := by
  cases i with
  | rspWrite | rspWriteExc => exact .inr rfl
  | _ => exact .inl rfl

/-- Settles O47: a response row loads its bytes and runs a decode command. -/
theorem responseFrameLoadsItsBytes : Obligations.ResponseFrameLoadsItsBytes := by
  rintro i s hfits ⟨bytes, hi⟩
  exact ⟨_, exec_response hi s, loadedAndDecoded_effect (decoderOf_eq i) (length_frameBytes_le hfits) s⟩

/-- Settles O43: the loaded bytes are a read response to the request, so `DEC_READ` delivers. -/
theorem rspReadDeliversItsValues : Obligations.RspReadDeliversItsValues := by
  rintro unit byteCount regs crc s hwf rfl hcount
  have hfits := Instr.fits_of_wf hwf
  obtain ⟨hmin, hmax⟩ := (fits_rspRead s.unit byteCount regs crc).mp hfits
  have hlen := length_frameBytes_rspRead s.unit byteCount regs crc
  have hloaded := received_loadReceived (frameBytes (.rspRead s.unit byteCount regs crc)) s (length_frameBytes_le hfits)
  have hreceived := hloaded.trans (withTrailer_of_wf hwf rfl).symm
  refine ⟨_, congrArg Host.Outcome.next (decodeRead_of_readResponse hreceived hcount hmin hmax), ?state, hloaded,
    fun k hk => loadReceived_rxbuf_of_le _ s k (hlen.trans_le hk),
    fun i => decodedResult_of_readResponse hreceived hcount i i.isLt⟩
  rw [← hlen]
  rfl

/-- Settles O44: the loaded bytes are a write response, which `DEC_WRITE` compares with the request. -/
theorem rspWriteIsAcknowledged : Obligations.RspWriteIsAcknowledged := by
  intro unit addr value crc s hwf
  have hloaded := received_loadReceived (frameBytes (.rspWrite unit addr value crc)) s
    (length_frameBytes_le (Instr.fits_of_wf hwf))
  have hreceived := hloaded.trans (withTrailer_of_wf hwf rfl).symm
  have hdecode := decodeWrite_of_writeResponse (unit := unit) (addr := addr) (value := value) hreceived
  exact ⟨_, congrArg Host.Outcome.next hdecode, rfl, hloaded, fun k hk => loadReceived_rxbuf_of_le _ s k hk⟩

/-- What the tests of both decoders see of an exception response with a right trailer (R62). -/
theorem bytes_of_exceptionResponse {s : State} {unit function code : Byte}
    (h : received s = withTrailer [unit, function, code]) :
    5 ≤ s.rxLen.toNat ∧ s.rxbuf[0] = unit ∧ s.rxbuf[1] = function ∧ s.rxbuf[2] = code ∧ crcOk (received s) = true := by
  refine ⟨?length, rxbuf_of_received h 0 (by decide) rfl, rxbuf_of_received h 1 (by decide) rfl,
    rxbuf_of_received h 2 (by decide) rfl, ?trailer⟩
  case length =>
    rw [← length_received, h]
    exact le_refl 5
  case trailer =>
    rw [h]
    exact crcOk_withTrailer _

/-- Settles O45: the loaded bytes are an exception response of the addressed unit (R95). -/
theorem exceptionFramesReportTheirCode : Obligations.ExceptionFramesReportTheirCode := by
  rintro unit code crc s rfl
  refine ⟨fun hwf hmin hmax => ?read, fun hwf => ?write⟩
  case read =>
    have hloaded := received_loadReceived (frameBytes (.rspReadExc s.unit code crc)) s
      (length_frameBytes_le (Instr.fits_of_wf hwf))
    obtain ⟨hlen, hunit, hfunction, hcode, hcrc⟩ :=
      bytes_of_exceptionResponse (hloaded.trans (withTrailer_of_wf hwf rfl).symm)
    obtain ⟨hreported, -⟩ := exceptionResponseIsReported _ hlen hunit hcrc
    rw [hcode] at hreported
    exact ⟨_, hreported hfunction hmin hmax, rfl, hloaded, fun k hk => loadReceived_rxbuf_of_le _ s k hk⟩
  case write =>
    have hloaded := received_loadReceived (frameBytes (.rspWriteExc s.unit code crc)) s
      (length_frameBytes_le (Instr.fits_of_wf hwf))
    obtain ⟨hlen, hunit, hfunction, hcode, hcrc⟩ :=
      bytes_of_exceptionResponse (hloaded.trans (withTrailer_of_wf hwf rfl).symm)
    obtain ⟨-, hreported⟩ := exceptionResponseIsReported _ hlen hunit hcrc
    rw [hcode] at hreported
    exact ⟨_, hreported hfunction, rfl, hloaded, fun k hk => loadReceived_rxbuf_of_le _ s k hk⟩

/-! ### The lines of `LDRX` -/

/-- The `WR RXBUF` lines from entry `k` on write their bytes there, one after another, and nothing else (30_encoding.md
R69). -/
theorem runLines_rxbufLines (bytes : List Byte) (k : Nat) (hk : k + bytes.length ≤ 256) (s : State) : ∃ buffer,
    runLines (rxbufLines k bytes) s = .next (s.setRxbuf buffer) ∧
      ∀ j (hj : j < 256), buffer[j] = if j < k then s.rxbuf[j] else (bytes[j - k]?).getD s.rxbuf[j] := by
  induction bytes generalizing k s with
  | nil => exact ⟨s.rxbuf, rfl, by simp⟩
  | cons b bytes ih =>
    rw [List.length_cons] at hk
    have hwrite : serve (.wr (BitVec.ofNat 10 (0x100 + k)) (b.zeroExtend 16)) s = .next (s.setRxbuf (s.rxbuf.set k b)) := by
      have h := serve_write (.rxbuf ⟨k, by omega⟩) nofun (b.zeroExtend 16) s
      rwa [writeReg, loByte_zeroExtend] at h
    obtain ⟨buffer, hrun, hbuffer⟩ := ih (k + 1) (by omega) (s.setRxbuf (s.rxbuf.set k b))
    refine ⟨buffer, (runLines_cons_next hwrite _).trans hrun, fun j hj => ?_⟩
    rw [hbuffer j hj, State.setRxbuf_rxbuf, Vector.getElem_set]
    rcases Nat.lt_trichotomy j k with hlt | rfl | hgt
    · simp [hlt, hlt.ne', Nat.lt_succ_of_lt hlt]
    · simp
    · rw [if_neg (by omega), if_neg (by omega), if_neg (by omega), show j - k = j - (k + 1) + 1 by omega,
        List.getElem?_cons_succ]

/-- `LDRX` written out does what `loadReceived` says (R69). -/
theorem runLines_ldrxLines {bytes : List Byte} (hlen : bytes.length ≤ 255) (s : State) :
    runLines (ldrxLines bytes) s = .next (loadReceived bytes s) := by
  obtain ⟨buffer, hrun, hbuffer⟩ := runLines_rxbufLines bytes 0 (by omega) s
  have hoverlay : buffer = overlayBuffer bytes s.rxbuf := by
    refine Vector.ext fun j hj => ?_
    rw [hbuffer j hj]
    exact (loadReceived_rxbuf bytes s j hj).symm
  have hlength : loByte (BitVec.ofNat 16 bytes.length) = BitVec.ofNat 8 bytes.length := by
    apply BitVec.eq_of_toNat_eq
    rw [loByte_toNat, BitVec.toNat_ofNat, BitVec.toNat_ofNat]
    omega
  rw [ldrxLines, runLines_append hrun, hoverlay]
  refine (runLines_cons_next (serve_write .rxLen nofun _ _) []).trans ?_
  rw [writeReg, hlength]
  rfl

/-! ### Each row as its host lines -/

/-- A command's line runs it (20_memory.md R39). -/
theorem runLines_command {word : Word} {i : Instr} (h : decodeCommand word = .ok i) (s : State) :
    runLines [.wr 0x000 word] s = exec i s := by
  rw [runLines_cons_next (serve_command h s), runLines_nil, exec_eq]

/-- `LDRX` and a decode command are the decode command on the loaded state. -/
theorem runLines_ldrx_command {bytes : List Byte} (hlen : bytes.length ≤ 255) {word : Word} {i : Instr}
    (h : decodeCommand word = .ok i) (s : State) :
    runLines (ldrxLines bytes ++ [.wr 0x000 word]) s = exec i (loadReceived bytes s) := by
  rw [runLines_append (runLines_ldrxLines hlen s), runLines_command h]

/-- The line that writes a register other than `CMD`, before others. -/
theorem runLines_write_cons (r : Reg) (hr : r ≠ .cmd) (v : Word) (s : State) (es : List HostEvent) :
    runLines (.wr (indexOf r) v :: es) s = runLines es (writeReg r v s) :=
  runLines_cons_next (serve_write r hr v s) es

/-- Settles O46: a command by its own line; a request by three writes and a command; a response by `LDRX` and a command. -/
theorem everyRowIsItsHostScript : Obligations.EveryRowIsItsHostScript := by
  intro i s hfits
  have hlen := length_frameBytes_le hfits
  cases i with
  | crcInit | crcByte | crcBuf | crcCheck | encRead | encWrite | decRead | decWrite => exact runLines_command rfl s
  | reqRead unit addr count crc =>
    rw [linesOf]
    refine (runLines_write_cons .unit nofun _ s _).trans ?_
    refine (runLines_write_cons .addr nofun _ _ _).trans ?_
    refine (runLines_write_cons .count nofun _ _ _).trans ?_
    rw [runLines_command rfl, writeReg, writeReg, writeReg, loByte_zeroExtend]
    rfl
  | reqWrite unit addr value crc =>
    rw [linesOf]
    refine (runLines_write_cons .unit nofun _ s _).trans ?_
    refine (runLines_write_cons .addr nofun _ _ _).trans ?_
    refine (runLines_write_cons .value nofun _ _ _).trans ?_
    rw [runLines_command rfl, writeReg, writeReg, writeReg, loByte_zeroExtend]
    rfl
  | rspRead | rspReadExc => exact runLines_ldrx_command hlen (i := .decRead) rfl s
  | rspWrite | rspWriteExc => exact runLines_ldrx_command hlen (i := .decWrite) rfl s

/-! ### The two forms of a CRC -/

/-- The streaming lines feed their bytes to `CRC` one by one, through `DATA` (40_crc.md R83). -/
theorem runLines_crcStreamLines (bytes : List Byte) (s : State) (hok : s.status = 0x0) :
    runLines (crcStreamLines bytes) s =
      .next { s with crc := crcFrom s.crc bytes, data := (bytes.getLast?).getD s.data, status := 0x0 } := by
  induction bytes generalizing s with
  | nil =>
    rw [← hok]
    rfl
  | cons b bytes ih =>
    rw [crcStreamLines]
    refine (runLines_write_cons .data nofun _ s _).trans ?_
    rw [writeReg, loByte_zeroExtend, runLines_cons_next (serve_command (i := .crcByte) rfl _)]
    refine (ih (effect .crcByte (s.setData b)) rfl).trans ?_
    rw [List.getLast?_cons, crcFrom_cons]
    rfl

/-- Settles O37: the streaming form from the start value, and `CRC_BUF` on the loaded bytes. -/
theorem streamingAndBufferCrcAgree : Obligations.StreamingAndBufferCrcAgree := by
  refine fun bytes s => ⟨⟨_, ?streaming, rfl⟩, fun hlen => ?buffer⟩
  case streaming =>
    rw [runLines_cons_next (serve_command (i := .crcInit) rfl s)]
    exact runLines_crcStreamLines bytes (effect .crcInit s) rfl
  case buffer =>
    have hloaded := received_loadReceived bytes s hlen
    exact ⟨effect .crcBuf (loadReceived bytes s), runLines_ldrx_command hlen (i := .crcBuf) rfl s,
      congrArg crc16 hloaded, rfl, hloaded⟩

end Sys2Proof.Machine
end

section
/-! PROOFS. The reset state and the register invariant (spec 70_reset_and_hazards.md section 1, 10_state.md R21, R23, R28,
30_encoding.md R56 and R67, 42_decoder.md R98). -/

namespace Sys2Proof.Machine

open Sys2Proof.Safety

/-! ### The commands on the reset state -/

theorem received_resetAt (k : Nat) : received (State.resetAt k) = [] :=
  List.eq_nil_of_length_eq_zero (length_received _)

/-- The write request that an all-zero request gives (R120). -/
theorem requestFrame_zero :
    requestFrame 0 Config.fcWrite 0 0 = #v[0x00, 0x06, 0x00, 0x00, 0x00, 0x00, 0x88, 0x1B] := by decide +kernel

/-- Settles O56: the received sequence is empty, the count 0, and the frame that of an all-zero request. -/
theorem commandsStraightAfterReset : Obligations.CommandsStraightAfterReset := by
  intro k r
  refine ⟨rfl, ?crcByte, ?crcBuf, rfl, rfl, ?encWrite, rfl, rfl⟩
  case crcByte =>
    have hstep : crcByte 0xFFFF 0 = 0x40BF := by decide
    change Host.Outcome.next (succeed (r.setCrc (crcByte 0xFFFF 0))) = _
    rw [hstep]
    rfl
  case crcBuf =>
    change Host.Outcome.next (succeed (r.setCrc (crc16 (received r)))) = _
    rw [received_resetAt]
    rfl
  case encWrite =>
    change Host.Outcome.next (putRequest (requestFrame 0 Config.fcWrite 0 0) r) = _
    rw [requestFrame_zero]
    rfl

/-! ### The invariant, update by update -/

/-- Settles O57: the reset values are among the legal ones, and nothing is in `TXBUF` or `EXC`. -/
theorem resetIsLegal : Obligations.ResetIsLegal := fun _ =>
  { status_produced := okCode_mem
    txLen_zero_or_eight := .inl rfl
    resCount_le := Nat.zero_le _
    frame_checked := nofun
    frame_is_request := nofun
    exc_without_results := fun h => absurd rfl h }

section
variable {s : State} (hs : RegistersLegal s)
include hs

/-- A command that writes `STATUS` only, of the registers the invariant speaks of, writes a produced code (R56). -/
theorem legal_setStatus {code : Nibble} (hcode : code ∈ producedCodes) : RegistersLegal (s.setStatus code) :=
  { hs with status_produced := hcode }

/-- A failing encoder takes `TX_LEN` to 0, so `TXBUF` is no frame (R106). -/
theorem legal_raise_encoder (failure : Failure) : RegistersLegal (raise .encoder failure s) where
  status_produced := failureCode_mem failure
  txLen_zero_or_eight := .inl rfl
  resCount_le := hs.resCount_le
  frame_checked := nofun
  frame_is_request := nofun
  exc_without_results := hs.exc_without_results

/-- A built request has a right trailer and one of the two function codes (R67, R87). -/
theorem legal_putRequest {function : Byte} (hfunction : function = Config.fcRead ∨ function = Config.fcWrite)
    (unit : Byte) (addr operand : Word) : RegistersLegal (putRequest (requestFrame unit function addr operand) s) where
  status_produced := okCode_mem
  txLen_zero_or_eight := .inr rfl
  resCount_le := hs.resCount_le
  frame_checked := fun _ => crcOk_withTrailer (requestBody unit function addr operand)
  frame_is_request := fun _ => hfunction
  exc_without_results := hs.exc_without_results

/-- A decoder that leaves no results keeps the invariant whatever it leaves in `EXC` (R98). -/
theorem legal_noResults {code : Nibble} (hcode : code ∈ producedCodes) (info : Byte) :
    RegistersLegal { s with status := code, resCount := 0, exc := info } :=
  { hs with
    status_produced := hcode
    resCount_le := Nat.zero_le _
    exc_without_results := fun _ => rfl }

/-- Results come with `EXC` 0 (R98). -/
theorem legal_results {count : Byte} (hcount : count.toNat ≤ Config.maxCount) (values : Vector Word 125) :
    RegistersLegal { s with result := values, resCount := count, exc := 0x00, status := 0x0 } :=
  { hs with
    status_produced := okCode_mem
    resCount_le := hcount
    exc_without_results := fun h => absurd rfl h }

theorem legal_encodeRead : RegistersLegal (encodeRead s) := by
  rw [encodeRead]
  split
  · exact legal_putRequest hs (.inl rfl) _ _ _
  · exact legal_raise_encoder hs _

theorem legal_encodeWrite : RegistersLegal (encodeWrite s) := legal_putRequest hs (.inr rfl) _ _ _

theorem legal_decodeRead : RegistersLegal (decodeRead s) := by
  rcases decodeRead_cases s with ⟨failure, -, h⟩ | ⟨hnone, h⟩
  · rw [h]
    exact legal_noResults hs (failureCode_mem failure) _
  · obtain ⟨hlegal, -⟩ := (checkReadResponse_eq_none_iff s).mp hnone
    have hcount := ((countLegal_iff s).mp hlegal).right
    rw [h]
    exact legal_results hs ((loByte_toNat_of_le s.count (hcount.trans (by decide))).trans_le hcount) _

theorem legal_decodeWrite : RegistersLegal (decodeWrite s) := by
  rcases decodeWrite_cases s with ⟨failure, -, h⟩ | ⟨-, h⟩
  · rw [h]
    exact legal_noResults hs (failureCode_mem failure) _
  · rw [h]
    exact legal_noResults hs okCode_mem _

/-- Loading a received sequence writes none of the registers the invariant speaks of. -/
theorem legal_loadReceived (bytes : List Byte) : RegistersLegal (loadReceived bytes s) := { hs with }

/-- No host write but one to `CMD` touches them either (R27, last row). -/
theorem legal_writeReg (r : Reg) (v : Word) : RegistersLegal (writeReg r v s) := by
  obtain ⟨_, _, _, _, _, _, _, h⟩ := writeReg_writes r v s
  rw [h]
  exact { hs with }

/-! ### The invariant, row by row and line by line -/

theorem legal_effect (i : Instr) : RegistersLegal (effect i s) := by
  cases i with
  | crcInit | crcByte | crcBuf => exact { hs with status_produced := okCode_mem }
  | crcCheck =>
    rw [effect_crcCheck]
    refine legal_setStatus hs ?_
    cases checkTrailer s with
    | none => exact okCode_mem
    | some failure => exact failureCode_mem failure
  | encRead => exact legal_encodeRead hs
  | encWrite => exact legal_encodeWrite hs
  | decRead => exact legal_decodeRead hs
  | decWrite => exact legal_decodeWrite hs
  | reqRead unit addr count crc =>
    exact legal_encodeRead (s := ((s.setUnit unit).setAddr addr).setCount count) { hs with }
  | reqWrite unit addr value crc =>
    exact legal_encodeWrite (s := ((s.setUnit unit).setAddr addr).setValue value) { hs with }
  | rspRead | rspReadExc => exact legal_decodeRead (legal_loadReceived hs _)
  | rspWrite | rspWriteExc => exact legal_decodeWrite (legal_loadReceived hs _)

theorem legal_serve {e : HostEvent} {t : State} (h : serve e s = .next t) : RegistersLegal t := by
  rcases serve_cases e with ⟨a, -, he⟩ | ⟨c, i, -, -, he⟩ | ⟨v, -, he⟩ | ⟨a, v, -, he⟩ | ⟨-, he⟩ | ⟨c, -, -, -, why, he⟩ <;>
    rw [he] at h <;> cases h
  · exact { hs with }
  · exact legal_effect hs i
  · exact legal_setStatus hs (failureCode_mem .illegalCommand)
  · exact legal_writeReg hs _ v
  · exact { resetIsLegal (s.resets + 1) with }

end

/-- Settles O58: with no line left nothing changes, and a served line keeps the invariant. -/
theorem everyStepKeepsTheRegistersLegal : Obligations.EveryStepKeepsTheRegistersLegal := by
  intro s t hs ht
  cases hscript : s.script with
  | nil =>
    rw [step_nil hscript] at ht
    cases ht
    exact hs
  | cons e rest =>
    rw [step_cons hscript] at ht
    exact legal_serve (s := s.setScript rest) { hs with } ht

end Sys2Proof.Machine
end
